-- ==== Sys2Proof/Word.lean ====
section
/-! DEFINITION. The two word types of the machine: every memory datum is 8 bits, every CPU-side address 16 bits
(00_scope.md R7; 42_arithmetic_logic.md R185). -/

namespace Sys2Proof

/-- A memory datum, and the registers A, X, Y, SP, P (R4: XLEN is 8). -/
abbrev Byte := BitVec 8

/-- A CPU-side address and the program counter (R4: 16 bits). -/
abbrev Addr := BitVec 16

end Sys2Proof
end

