-- ==== Sys2Proof/Machine/Memory.lean ====
section
/-! DEFINITION. A byte array of the machine (10_state.md R27) as plain data: a list of (index, byte) cells in one
canonical form, indices strictly rising and no cell equal to what an unlisted index reads as. -/

namespace Sys2Proof

/-- One of the byte arrays of R27, each within its own index range. -/
abbrev Memory := List Host.Cell

/-- What an index that is not listed reads as. DESIGN CHOICE (log entry 1): 0x00, the default of the open parameter
MEM_INIT (92_eei_decisions.md D5). Another initial image lists its cells. -/
def Memory.unlisted : Byte := 0x00#8

/-- `read(addr)` of R27. -/
def Memory.read : Memory → Nat → Byte
  | [], _ => Memory.unlisted
  | (k, v) :: rest, a => if k = a then v else Memory.read rest a

/-- The list with a cell for `a` put in its place; used for a byte that differs from the unlisted one. -/
def Memory.insert : Memory → Nat → Byte → Memory
  | [], a, v => [(a, v)]
  | (k, w) :: rest, a, v =>
    if a < k then (a, v) :: (k, w) :: rest
    else if a = k then (a, v) :: rest
    else (k, w) :: Memory.insert rest a v

/-- The list without a cell for `a`. -/
def Memory.erase (m : Memory) (a : Nat) : Memory := m.filter fun c => c.1 != a

/-- `write(addr, val)` of R27; it keeps the canonical form. -/
def Memory.write (m : Memory) (a : Nat) (v : Byte) : Memory :=
  if v = Memory.unlisted then Memory.erase m a else Memory.insert m a v

/-- Indices strictly rise from `lo` on and no cell holds the unlisted byte. -/
def Memory.wfFrom : Nat → Memory → Bool
  | _, [] => true
  | lo, (k, v) :: rest => decide (lo ≤ k) && decide (v ≠ Memory.unlisted) && Memory.wfFrom (k + 1) rest

/-- The canonical form. -/
def Memory.wf (m : Memory) : Bool := Memory.wfFrom 0 m

/-- Every listed index is below the declared size (R27: bounded by its declared size; R65). -/
def Memory.within (size : Nat) (m : Memory) : Bool := m.all fun c => decide (c.1 < size)

/-- The canonical list of the bytes `vs` at the indices `from`, `from + 1`, ... -/
def Memory.ofBytes : Nat → List Byte → Memory
  | _, [] => []
  | k, v :: vs => if v = Memory.unlisted then Memory.ofBytes (k + 1) vs else (k, v) :: Memory.ofBytes (k + 1) vs

end Sys2Proof
end

