-- ==== Sys2Proof/Config.lean ====
section
/-! DEFINITION. The parameters of the machine (00_scope.md R4): the fixed numbers as constants, and the cartridge and
the initial memory images as data a machine is built from. The spec leaves no value free, so there is no opaque
constant here. -/

namespace Sys2Proof.Config

/-- RAM_SIZE of R4. -/
def ramSize : Nat := 0x0800
/-- PATTERN_SIZE of R4. -/
def patternSize : Nat := 0x2000
/-- VRAM_SIZE of R4. -/
def vramSize : Nat := 0x2000
/-- OAM_SIZE of R4. -/
def oamSize : Nat := 0x100
/-- PALETTE_SIZE of R4. -/
def paletteSize : Nat := 0x20
/-- DOTS_PER_LINE of R4. -/
def dotsPerLine : Nat := 341
/-- LINES_PER_FRAME of R4. -/
def linesPerFrame : Nat := 262
/-- DOTS_PER_CPU_CYCLE of R4. -/
def dotsPerCycle : Nat := 3
/-- DMA_CYCLES of R4. -/
def dmaCycles : Nat := 514
/-- INT_ENTRY_CYCLES of R4 (decision D12). -/
def intEntryCycles : Nat := 0

end Sys2Proof.Config

namespace Sys2Proof

/-- PRG_SIZE of R4: 0x4000 or 0x8000 and nothing else (93_implementation_defined.md U5: another is refused at
construction, here by the type). -/
inductive PrgSize where
  | k16
  | k32
  deriving DecidableEq, Repr

/-- PRG_SIZE in bytes. -/
def PrgSize.bytes : PrgSize → Nat
  | .k16 => 0x4000
  | .k32 => 0x8000

/-- The cartridge's parameters of R4: constant after reset (00_scope.md R5), so no step changes them. `chr` is absent or
an image of 0x2000 bytes (U6). -/
structure Cartridge where
  prgSize          : PrgSize
  prg              : Memory
  chr              : Option Memory
  horizontalMirror : Bool
  deriving DecidableEq, Repr

/-- The cartridge of State.reset: 16 KiB of program ROM, every byte 0x00, no character data, no horizontal mirroring
(the base of 95_test_vectors.md section 0). DESIGN CHOICE (log entry 2): which cartridge is in the machine is not the
CORE's to say. -/
def Cartridge.blank : Cartridge :=
  { prgSize := .k16, prg := [], chr := none, horizontalMirror := false }

/-- MEM_INIT of R4, one initial image for each memory (92_eei_decisions.md D5, OPEN). -/
structure MemInit where
  ram  : Memory
  pat  : Memory
  vram : Memory
  oam  : Memory
  pal  : Memory
  deriving DecidableEq, Repr

/-- The default of MEM_INIT: every byte 0x00 (D5). -/
def MemInit.zero : MemInit := { ram := [], pat := [], vram := [], oam := [], pal := [] }

end Sys2Proof
end

