-- ==== Sys2Proof/Machine/Bits.lean ====
section
/-! DEFINITION. Bit fields, byte order and sign extension, in the notation of 00_scope.md R6. -/

namespace Sys2Proof

/-- `v[k]` of R6. -/
def bit (v : Byte) (k : Nat) : Bool := v.getLsbD k

/-- `v` with bit `k` made `b` and every other bit kept. -/
def withBit (v : Byte) (k : Nat) (b : Bool) : Byte :=
  if b then v ||| (1#8 <<< k) else v &&& ~~~(1#8 <<< k)

/-- `hi(w)` of R6: bits 15 to 8; the page of an address. -/
def hiByte (w : Addr) : Byte := w.extractLsb' 8 8

/-- `lo(w)` of R6: bits 7 to 0. -/
def loByte (w : Addr) : Byte := w.extractLsb' 0 8

/-- `h :: l` of R6: the 16-bit value with high byte `h` and low byte `l`. -/
def word (h l : Byte) : Addr := h ++ l

/-- A byte as a 16-bit unsigned value (R6: `zext` is implicit). -/
def zext (b : Byte) : Addr := b.setWidth 16

/-- `sext8` of R6, as a 16-bit two's-complement value. -/
def sext8 (d : Byte) : Addr := d.signExtend 16

/-- `a + n` modulo 65536, the `u16` of R6. -/
def addrPlus (a : Addr) (n : Nat) : Addr := a + BitVec.ofNat 16 n

end Sys2Proof
end

