-- ==== Sys2Proof/Machine/Render.lean ====
section
/-! DEFINITION. The records of the frame payload and how they are built from the PPU's memories: patterns
(60_exceptions.md R319), sprites (R318), tiles (R314), the palette table (R320). And the reading of program ROM (20_memory.md R63). -/

namespace Sys2Proof

/-- Eight rows of eight values of 2 bits, row 0 at the top, column 0 at the left (R319). -/
abbrev Pattern := Vector (Vector (BitVec 2) 8) 8

/-- The Tile record of 10_state.md R33. -/
structure Tile where
  paletteId : BitVec 2
  pattern   : Pattern
  scrollX   : Byte
  scrollY   : Byte
  deriving DecidableEq, Repr

/-- The Sprite-with-attribute record of 10_state.md R33; a sprite's index is its place in the list. -/
structure Sprite where
  x       : Byte
  y       : Byte
  attr    : Byte
  id      : Byte
  pattern : Pattern
  deriving DecidableEq, Repr

/-- The frame payload, RenderingData of R316. -/
structure RenderingData where
  palette    : List Byte
  background : Option (List Tile)
  sprites    : Option (List Sprite)
  deriving DecidableEq, Repr

namespace Machine

/-- One 2-bit value of a pattern: bytes 0 to 7 are the low bit-plane, 8 to 15 the high one, bit 7 the leftmost (R319). -/
def patternPixel (pat : Memory) (base : Nat) (id : Byte) (r c : Nat) : BitVec 2 :=
  let at0 := base + id.toNat * 16 + r
  BitVec.ofNat 2 ((bit (pat.read at0) (7 - c)).toNat + 2 * (bit (pat.read (at0 + 8)) (7 - c)).toNat)

/-- `Pattern(base, id)` of R319. -/
def buildPattern (pat : Memory) (base : Nat) (id : Byte) : Pattern :=
  Vector.ofFn fun r => Vector.ofFn fun c => patternPixel pat base id r.val c.val

/-- The half of pattern memory a control bit selects (R314, R318). -/
def patternBase (upper : Bool) : Nat := if upper then 0x1000 else 0x0000

/-- `BuildSprite(i)` of R318; the subtraction of 8 wraps in 8 bits. -/
def buildSprite (oam pat : Memory) (upper : Bool) (i : Nat) : Sprite :=
  let b := 4 * i
  { y       := oam.read b - 8#8
    id      := oam.read (b + 1)
    attr    := oam.read (b + 2)
    x       := oam.read (b + 3)
    pattern := buildPattern pat (patternBase upper) (oam.read (b + 1)) }

/-- The 64 sprites of a frame (R317). -/
def buildSprites (oam pat : Memory) (upper : Bool) : List Sprite :=
  (List.range 64).map (buildSprite oam pat upper)

/-- `Mirror(i)` of R314. -/
def mirrorIndex (horizontal : Bool) (i : Nat) : Nat :=
  if horizontal && ((decide (0x400 ≤ i) && decide (i < 0x800)) || decide (0xC00 ≤ i)) then i - 0x400 else i

/-- `BuildTile(tx, ty, off)` of R314. -/
def buildTile (vram pat : Memory) (horizontal upper : Bool) (scrollX scrollY : Byte) (tx ty off : Nat) : Tile :=
  let tileId := vram.read (mirrorIndex horizontal (off + ty * 32 + tx))
  let attr   := vram.read (mirrorIndex horizontal (off + 0x3C0 + (ty / 4) * 8 + tx / 4))
  let block  := ((ty % 4) / 2) * 2 + (tx % 4) / 2
  { paletteId := BitVec.ofNat 2 (attr.toNat >>> (block * 2))
    pattern   := buildPattern pat (patternBase upper) tileId
    scrollX   := scrollX
    scrollY   := scrollY }

/-- `PalWriteIndex(i)` of 20_memory.md R68. -/
def palWriteIndex (i : Nat) : Nat :=
  if i = 0x10 ∨ i = 0x14 ∨ i = 0x18 ∨ i = 0x1C then i - 0x10 else i

/-- The cell that `PalRead(i)` of 20_memory.md R68 reads; the cases are not chained. -/
def palReadIndex (i : Nat) : Nat :=
  if i = 0x10 ∨ i = 0x14 ∨ i = 0x18 ∨ i = 0x1C then i - 0x10
  else if i = 0x04 ∨ i = 0x08 ∨ i = 0x0C then 0x00
  else i

/-- `PalRead(i)` of 20_memory.md R68. -/
def palRead (pal : Memory) (i : Nat) : Byte := pal.read (palReadIndex i)

/-- The palette table of the frame payload (R320). -/
def paletteTable (pal : Memory) : List Byte := (List.range 32).map (palRead pal)

/-- `PrgIndex(addr)` of 20_memory.md R63, for addr of 0x8000 and above. -/
def prgIndex (prgBytes : Nat) (a : Addr) : Nat := (a.toNat - 0x8000) % prgBytes

/-- The byte of program ROM at a CPU address of 0x8000 and above (20_memory.md R61 rows 8 and 9, R63). -/
def prgByte (cart : Cartridge) (a : Addr) : Byte := cart.prg.read (prgIndex cart.prgSize.bytes a)

end Machine

end Sys2Proof
end

