-- ==== Sys2Proof/Machine/State.lean ====
section
/-! DEFINITION. Everything the spec gives the machine, as plain data (10_state.md R20 to R36), the reasons a step can
stop, and the state after reset (10_state.md R37, 70_reset_and_hazards.md R380). -/

namespace Sys2Proof.Machine

/-- The CPU registers (10_state.md R20 to R25). `p` is the byte N::V::R::B::D::I::Z::C of R23. -/
structure Cpu where
  a  : Byte
  x  : Byte
  y  : Byte
  sp : Byte
  p  : Byte
  pc : Addr
  deriving DecidableEq, Repr

/-- The PPU: its memories (10_state.md R27), registers (R28 to R32) and frame buffers (R33). -/
structure Ppu where
  pat          : Memory
  vram         : Memory
  oam          : Memory
  pal          : Memory
  ctrl         : Byte
  mask         : Byte
  vblank       : Bool
  sprite0Hit   : Bool
  oamAddr      : Byte
  scrollX      : Byte
  scrollY      : Byte
  /-- false: the next offset-5 write is X -/
  scrollToggle : Bool
  vramAddr     : Addr
  /-- false: the next offset-6 write is the high byte -/
  addrToggle   : Bool
  readBuf      : Byte
  line         : Nat
  dot          : Nat
  background   : List Tile
  sprites      : List Sprite
  deriving DecidableEq, Repr

/-- The DMA Unit (10_state.md R34). -/
structure Dma where
  pending : Bool
  page    : Byte
  deriving DecidableEq, Repr

/-- One controller port's state (10_state.md R35). -/
structure Controller where
  strobe : Bool
  shift  : Vector Bool 8
  index  : Fin 8
  deriving DecidableEq, Repr

/-- The two controller ports (10_state.md R35): `one` at 0x4016, `two` at 0x4017. -/
inductive Port where
  | one
  | two
  deriving DecidableEq, Repr

/-- What the outside may do between two system steps (00_scope.md R5; 60_exceptions.md R301, R347, R350). -/
inductive InputEvent where
  | keyDown (port : Port) (button : Fin 8)
  | keyUp   (port : Port) (button : Fin 8)
  | irqIn
  deriving DecidableEq, Repr

/-- The outputs of a system step (00_scope.md R5). The model's own field (log entry 4), emptied when a step begins. -/
structure Outputs where
  /-- `cycles`: the CPU step's cycle count (40_addressing_modes.md R145) -/
  cycles      : Nat
  /-- what a DMA transfer adds to the system step's count `c` (60_exceptions.md R342, R350); 0 in a step with none -/
  dmaCycles   : Nat
  /-- the `audio_write(addr, v)` events, in order -/
  audioWrites : List (Addr × Byte)
  /-- the count that `audio_tick` carries: the system step's `c` (R348, R350) -/
  audioTick   : Nat
  /-- the records of the `frame` events -/
  frames      : List RenderingData
  deriving DecidableEq, Repr

/-- Nothing put out yet. -/
def Outputs.empty : Outputs := { cycles := 0, dmaCycles := 0, audioWrites := [], audioTick := 0, frames := [] }

end Sys2Proof.Machine

namespace Sys2Proof.Machine

/-- The whole machine. `cart`, `buttons1`, `buttons2`, `inputs` and `out` are the model's own fields: parameters, input
levels, input events to come (one list for each system step to come) and the last step's outputs (log entries 2, 3, 4). -/
structure State where
  cpu      : Cpu
  nmiLatch : Bool
  irqLatch : Bool
  ram      : Memory
  ppu      : Ppu
  dma      : Dma
  port1    : Controller
  port2    : Controller
  cart     : Cartridge
  buttons1 : Vector Bool 8
  buttons2 : Vector Bool 8
  inputs   : List (List InputEvent)
  out      : Outputs
  deriving DecidableEq, Repr

/-- The one way the machine stops (60_exceptions.md R306). -/
inductive Fault where
  /-- Raised by the meaning of each of the 25 reserved opcodes (46_unofficial.md R270). `op` is the opcode byte; `stopped`
  is the state in which the machine stops, its `pc` one past the opcode. Safe: the spec names this fault. -/
  | illegalOpcode (op : Byte) (stopped : State)
  deriving DecidableEq, Repr

/-- Reasons to have no meaning. No meaning of this model refuses. -/
inductive Refusal where
  /-- Would be raised by an arm of exec that has no meaning yet; no arm is. Safe: nothing can be proved through it. -/
  | notModelled (mnemonic : String)
  deriving DecidableEq, Repr

/-- A controller port at reset (10_state.md R37). -/
def Controller.reset : Controller := { strobe := false, shift := Vector.replicate 8 false, index := 0 }

/-- The PPU at reset before its sprites are built (R380 items 1 and 4): `pat` is CHR where the cartridge has it. -/
def Ppu.powerOn (cart : Cartridge) (init : MemInit) : Ppu :=
  { pat          := cart.chr.getD init.pat
    vram         := init.vram
    oam          := init.oam
    pal          := init.pal
    ctrl         := 0x00#8
    mask         := 0x00#8
    vblank       := false
    sprite0Hit   := false
    oamAddr      := 0x00#8
    scrollX      := 0x00#8
    scrollY      := 0x00#8
    scrollToggle := false
    vramAddr     := 0x0000#16
    addrToggle   := false
    readBuf      := 0x00#8
    line         := 0
    dot          := 0
    background   := []
    sprites      := buildSprites init.oam (cart.chr.getD init.pat) false }

/-- `Reset(PRG, CHR, HORIZONTAL_MIRROR, MEM_INIT)` of R380, for every value of the parameters. -/
def State.powerOn (cart : Cartridge) (init : MemInit) : State :=
  { cpu :=
      { a := 0x00#8, x := 0x00#8, y := 0x00#8, sp := 0xFD#8, p := 0x24#8
        pc := word (prgByte cart 0xFFFD#16) (prgByte cart 0xFFFC#16) }
    nmiLatch := false
    irqLatch := false
    ram      := init.ram
    ppu      := Ppu.powerOn cart init
    dma      := { pending := false, page := 0x00#8 }
    port1    := Controller.reset
    port2    := Controller.reset
    cart     := cart
    buttons1 := Vector.replicate 8 false
    buttons2 := Vector.replicate 8 false
    inputs   := []
    out      := Outputs.empty }

/-- The machine right after reset, with the parameters at their defaults: MEM_INIT all 0x00 (D5) and the blank cartridge
(log entries 1 and 2). -/
def State.reset : State := State.powerOn Cartridge.blank MemInit.zero

end Sys2Proof.Machine
end

