-- ==== Sys2Proof/Machine/Update.lean ====
section
/-! DEFINITION. One named update for each element of State that an operation changes by itself. The lemmas that say what
each leaves alone stand in Sys2Proof/Laws/State.lean. -/

namespace Sys2Proof.Machine

def State.setA (s : State) (v : Byte) : State := { s with cpu := { s.cpu with a := v } }
def State.setX (s : State) (v : Byte) : State := { s with cpu := { s.cpu with x := v } }
def State.setY (s : State) (v : Byte) : State := { s with cpu := { s.cpu with y := v } }
def State.setSp (s : State) (v : Byte) : State := { s with cpu := { s.cpu with sp := v } }
def State.setP (s : State) (v : Byte) : State := { s with cpu := { s.cpu with p := v } }
def State.setPc (s : State) (v : Addr) : State := { s with cpu := { s.cpu with pc := v } }
def State.setNmi (s : State) (v : Bool) : State := { s with nmiLatch := v }
def State.setIrq (s : State) (v : Bool) : State := { s with irqLatch := v }
def State.setRam (s : State) (v : Memory) : State := { s with ram := v }
def State.setPpu (s : State) (v : Ppu) : State := { s with ppu := v }
def State.setDma (s : State) (v : Dma) : State := { s with dma := v }
def State.setPort1 (s : State) (v : Controller) : State := { s with port1 := v }
def State.setPort2 (s : State) (v : Controller) : State := { s with port2 := v }
def State.setButtons1 (s : State) (v : Vector Bool 8) : State := { s with buttons1 := v }
def State.setButtons2 (s : State) (v : Vector Bool 8) : State := { s with buttons2 := v }
def State.setInputs (s : State) (v : List (List InputEvent)) : State := { s with inputs := v }
def State.setOut (s : State) (v : Outputs) : State := { s with out := v }

/-- `n` cycles added to the CPU step's count (40_addressing_modes.md R130 item 6, R145). -/
def State.charge (s : State) (n : Nat) : State := s.setOut { s.out with cycles := s.out.cycles + n }

/-- `n` cycles added to the system step by the DMA Unit (60_exceptions.md R342); the CPU step's count stays. -/
def State.chargeDma (s : State) (n : Nat) : State := s.setOut { s.out with dmaCycles := s.out.dmaCycles + n }

/-- The count `c` of the system step so far: the transfer's cycles and the CPU step's (60_exceptions.md R350). -/
def State.stepCycles (s : State) : Nat := s.out.dmaCycles + s.out.cycles

end Sys2Proof.Machine
end

