-- ==== Sys2Proof/Machine/Devices.lean ====
section
/-! DEFINITION. The controller ports (60_exceptions.md R345 to R347), the audio port (R348), the DMA Unit (R340, R341) and
the Interrupt Line (R300). -/

namespace Sys2Proof.Machine

/-! ### The Interrupt Line (R300): asserting a set latch leaves it set -/

def assertNmi (s : State) : State := s.setNmi true
def deassertNmi (s : State) : State := s.setNmi false
def assertIrq (s : State) : State := s.setIrq true
def deassertIrq (s : State) : State := s.setIrq false

/-! ### The controller ports -/

/-- `ControllerWrite(k, v)` of one port whose button inputs are `buttons` (R345). -/
def controllerWrite (buttons : Vector Bool 8) (v : Byte) (c : Controller) : Controller :=
  if bit v 0 then { c with strobe := true, shift := buttons }
  else { c with strobe := false, index := 0 }

/-- `ControllerRead(k)` of one port (R346). -/
def controllerRead (c : Controller) : Byte × Controller :=
  (if c.shift[c.index] then 0x01#8 else 0x00#8, { c with index := c.index + 1 })

/-- A button input set or cleared (R347). -/
def setButton (buttons : Vector Bool 8) (k : Fin 8) (down : Bool) : Vector Bool 8 := buttons.set k down

/-- One input event (00_scope.md R5; R301, R347). -/
def applyInput (s : State) : InputEvent → State
  | .keyDown .one k => s.setButtons1 (setButton s.buttons1 k true)
  | .keyDown .two k => s.setButtons2 (setButton s.buttons2 k true)
  | .keyUp .one k   => s.setButtons1 (setButton s.buttons1 k false)
  | .keyUp .two k   => s.setButtons2 (setButton s.buttons2 k false)
  | .irqIn          => assertIrq s

/-! ### The audio port -/

/-- The output event `audio_write(addr, v)` (R348): no CORE state changes. -/
def audioWrite (a : Addr) (v : Byte) (s : State) : State :=
  s.setOut { s.out with audioWrites := s.out.audioWrites ++ [(a, v)] }

/-! ### The DMA Unit -/

/-- The trigger, a write to 0x4014 (R340): nothing is copied yet. -/
def dmaTrigger (v : Byte) (s : State) : State := s.setDma { pending := true, page := v }

/-- One byte of the transfer (R341): the source is RAM by index, the destination wraps in sprite memory. -/
def dmaByte (ram : Memory) (page oamAddr : Byte) (oam : Memory) (i : Nat) : Memory :=
  oam.write (oamAddr + BitVec.ofNat 8 i).toNat (ram.read ((page.toNat * 256 + i) % Config.ramSize))

/-- Sprite memory after the 256 bytes of the transfer, in the order i = 0 to 255 (R341). -/
def dmaCopy (ram : Memory) (page oamAddr : Byte) (oam : Memory) : Memory :=
  (List.range 256).foldl (dmaByte ram page oamAddr) oam

/-- `DmaTransfer()` (R341). -/
def dmaTransfer (s : State) : State :=
  (s.setPpu { s.ppu with oam := dmaCopy s.ram s.dma.page s.ppu.oamAddr s.ppu.oam }).setDma { s.dma with pending := false }

end Sys2Proof.Machine
end

