-- ==== Sys2Proof/Machine/Flags.lean ====
section
/-! DEFINITION. The status register's flags (10_state.md R23) and every flag computation the instructions share. -/

namespace Sys2Proof.Machine

/-- The flags of P (R23). -/
inductive Flag where
  | n | v | r | b | d | i | z | c
  deriving DecidableEq, Repr

/-- A flag's bit in P (R23). -/
def flagBit : Flag → Nat
  | .n => 7 | .v => 6 | .r => 5 | .b => 4 | .d => 3 | .i => 2 | .z => 1 | .c => 0

/-- A flag as P holds it. -/
def State.flag (s : State) (f : Flag) : Bool := bit s.cpu.p (flagBit f)

/-- P with one flag written and the others kept. -/
def State.setFlag (s : State) (f : Flag) (v : Bool) : State := s.setP (withBit s.cpu.p (flagBit f) v)

/-- `SetZN(v)` (00_scope.md R7). -/
def State.setZN (s : State) (v : Byte) : State := (s.setFlag .z (decide (v = 0#8))).setFlag .n (bit v 7)

/-- The carry as a number. -/
def State.carry (s : State) : Nat := (s.flag .c).toNat

/-- `AddWithCarry(M)` (42_arithmetic_logic.md R170): binary whatever the decimal flag holds (R186). -/
def addWithCarry (m : Byte) (s : State) : State :=
  let a := s.cpu.a
  let sum := a.toNat + m.toNat + s.carry
  let r := BitVec.ofNat 8 sum
  let overflow := (bit a 7 == bit m 7) && (bit r 7 != bit a 7)
  (((s.setFlag .c (decide (0xFF < sum))).setFlag .v overflow).setA r).setZN r

/-- `AddWithCarry(M ^ 0xFF)` (R171). -/
def subWithBorrow (m : Byte) (s : State) : State := addWithCarry (m ^^^ 0xFF#8) s

/-- `Compare(R, M)` (R176): an unsigned comparison for C, the truncated difference for Z and N. -/
def compareBytes (r m : Byte) (s : State) : State := (s.setFlag .c (decide (m.toNat ≤ r.toNat))).setZN (r - m)

/-- The flags of BIT (R175): Z from the conjunction, N and V from the operand. -/
def bitTest (m : Byte) (s : State) : State :=
  ((s.setFlag .z (decide (s.cpu.a &&& m = 0#8))).setFlag .n (bit m 7)).setFlag .v (bit m 6)

/-- The result of ASL on `m` (43_shift_rotate.md R200). -/
def aslByte (m : Byte) : Byte := m <<< 1

/-- The result of LSR on `m` (R201). -/
def lsrByte (m : Byte) : Byte := m >>> 1

/-- The result of ROL on `m` with the old carry `c` (R202). -/
def rolByte (c : Bool) (m : Byte) : Byte := withBit (m <<< 1) 0 c

/-- The result of ROR on `m` with the old carry `c` (R203). -/
def rorByte (c : Bool) (m : Byte) : Byte := withBit (m >>> 1) 7 c

/-- P as PLP and RTI load it from a pulled byte (44_stack_flags.md R213): bit 5 forced to 1, bit 4 to 0. -/
def loadedStatus (b : Byte) : Byte := (b &&& 0xCF#8) ||| 0x20#8

/-- P as PHP and BRK push it (R211, 45_control_transfer.md R243). -/
def pushedStatus (p : Byte) : Byte := p ||| 0x30#8

end Sys2Proof.Machine
end

