-- ==== Sys2Proof/Machine/Ppu.lean ====
section
/-! DEFINITION. The picture unit: its bus (20_memory.md R66 to R68), its registers as the CPU sees them (60_exceptions.md
R321 to R332) and its scanline machine (R310 to R317). -/

namespace Sys2Proof.Machine

/-! ### The fields of the control and mask registers (10_state.md R29, R30) -/

/-- `ppu_ctrl.vram_inc32` as the increment after an offset-7 access (R328). -/
def Ppu.increment (p : Ppu) : Nat := if bit p.ctrl 2 then 32 else 1
/-- `ppu_ctrl.sprite_table` (R29). -/
def Ppu.spriteTable (p : Ppu) : Bool := bit p.ctrl 3
/-- `ppu_ctrl.bg_table` (R29). -/
def Ppu.bgTable (p : Ppu) : Bool := bit p.ctrl 4
/-- `ppu_ctrl.nmi_enable` (R29). -/
def Ppu.nmiEnable (p : Ppu) : Bool := bit p.ctrl 7
/-- `ppu_mask.bg_enable` (R30). -/
def Ppu.bgEnable (p : Ppu) : Bool := bit p.mask 3
/-- `ppu_mask.sprite_enable` (R30). -/
def Ppu.spriteEnable (p : Ppu) : Bool := bit p.mask 4

/-! ### The PPU bus -/

/-- `BusReadPpu(addr)` (20_memory.md R66). -/
def busReadPpu (addr : Addr) (p : Ppu) : Byte :=
  let a := addr.toNat % 0x4000
  if a < 0x2000 then p.pat.read a
  else if a < 0x3000 then p.vram.read (a - 0x2000)
  else if a < 0x3F00 then p.vram.read (a - 0x3000)
  else palRead p.pal (a % 0x20)

/-- `BusWritePpu(addr, v)` (20_memory.md R67). -/
def busWritePpu (addr : Addr) (v : Byte) (p : Ppu) : Ppu :=
  let a := addr.toNat % 0x4000
  if a < 0x2000 then { p with pat := p.pat.write a v }
  else if a < 0x3000 then { p with vram := p.vram.write (a - 0x2000) v }
  else if a < 0x3F00 then { p with vram := p.vram.write (a - 0x3000) v }
  else { p with pal := p.pal.write (palWriteIndex (a % 0x20)) v }

/-- `vram_addr <- u16(vram_addr + inc)` (R328, R331). -/
def Ppu.advance (p : Ppu) : Ppu := { p with vramAddr := addrPlus p.vramAddr p.increment }

/-! ### Register writes, `PpuRegWrite(k, v)` -/

/-- Offset 4 (R325): the write advances `oam_addr`. -/
def writeOamData (v : Byte) (p : Ppu) : Ppu :=
  { p with oam := p.oam.write p.oamAddr.toNat v, oamAddr := p.oamAddr + 1#8 }

/-- Offset 5 (R326): X and Y in turn. -/
def writeScroll (v : Byte) (p : Ppu) : Ppu :=
  if p.scrollToggle then { p with scrollY := v, scrollToggle := false }
  else { p with scrollX := v, scrollToggle := true }

/-- Offset 6 (R327): the high byte, which clears the low one, then the low byte. -/
def writeVramAddr (v : Byte) (p : Ppu) : Ppu :=
  if p.addrToggle then { p with vramAddr := word (hiByte p.vramAddr) v, addrToggle := false }
  else { p with vramAddr := word v 0x00#8, addrToggle := true }

/-- Offset 7 (R328). -/
def writeVramData (v : Byte) (p : Ppu) : Ppu := (busWritePpu p.vramAddr v p).advance

/-- `PpuRegWrite(k, v)` (R321 to R328); a write to offset 2 is ignored (R323). -/
def ppuRegWrite (k : Nat) (v : Byte) (p : Ppu) : Ppu :=
  match k with
  | 0 => { p with ctrl := v }
  | 1 => { p with mask := v }
  | 2 => p
  | 3 => { p with oamAddr := v }
  | 4 => writeOamData v p
  | 5 => writeScroll v p
  | 6 => writeVramAddr v p
  | _ => writeVramData v p

/-! ### Register reads, `PpuRegRead(k)` -/

/-- Offset 2 (R329): the flags as they were before the read clears `vblank`. -/
def readStatus (p : Ppu) : Byte × Ppu :=
  (withBit (withBit 0x00#8 7 p.vblank) 6 p.sprite0Hit, { p with vblank := false, scrollToggle := false })

/-- Offset 7 (R331): buffered, but for palette addresses. -/
def readVramData (p : Ppu) : Byte × Ppu :=
  let a := p.vramAddr.toNat % 0x4000
  if 0x3F00 ≤ a then (palRead p.pal (a % 0x20), p.advance)
  else (p.readBuf, { p with readBuf := busReadPpu p.vramAddr p }.advance)

/-- `PpuRegRead(k)` (R329 to R332); offsets 0, 1, 3, 5, 6 read as 0x00 (R332). -/
def ppuRegRead (k : Nat) (p : Ppu) : Byte × Ppu :=
  match k with
  | 2 => readStatus p
  | 4 => (p.oam.read p.oamAddr.toNat, p)
  | 7 => readVramData p
  | _ => (0x00#8, p)

/-! ### The scanline machine -/

/-- `SpriteZeroTest(finished)` (R312). -/
def spriteZeroTest (finished : Nat) (s : State) : State :=
  if (s.ppu.oam.read 0).toNat = finished ∧ s.ppu.spriteEnable ∧ s.ppu.bgEnable then
    s.setPpu { s.ppu with sprite0Hit := true }
  else s

/-- The 33 tiles of the row that `BuildBackgroundRow` appends (R313). -/
def backgroundRow (horizontal : Bool) (p : Ppu) : List Tile :=
  let stx := (p.scrollX.toNat + (bit p.ctrl 0).toNat * 256) / 8
  let sty := (p.scrollY.toNat + (bit p.ctrl 1).toNat * 240) / 8
  let ay  := (p.line / 8 - 1) + sty
  let ty  := ay % 30
  let tby := (ay / 30) % 2
  (List.range 33).map fun k =>
    let ax  := k + stx
    let tx  := ax % 32
    let tbx := (ax / 32) % 2
    buildTile p.vram p.pat horizontal p.bgTable p.scrollX p.scrollY tx ty ((tby * 2 + tbx) * 0x400)

/-- `BuildBackgroundRow()` (R313). -/
def buildBackgroundRow (s : State) : State :=
  s.setPpu { s.ppu with background := s.ppu.background ++ backgroundRow s.cart.horizontalMirror s.ppu }

/-- `VblankStart()` (R315): the enable bit is sampled here only. -/
def vblankStart (s : State) : State :=
  let s' := s.setPpu { s.ppu with vblank := true }
  if s.ppu.nmiEnable then s'.setNmi true else s'

/-- `FrameStart()` (R317). -/
def frameStart (p : Ppu) : Ppu :=
  { p with background := [], sprites := buildSprites p.oam p.pat p.spriteTable }

/-- The record that `FrameEnd` emits (R316, R320). -/
def framePayload (p : Ppu) : RenderingData :=
  { palette    := paletteTable p.pal
    background := if p.bgEnable then some p.background else none
    sprites    := if p.spriteEnable then some p.sprites else none }

/-- `FrameEnd(out)` (R316). -/
def frameEnd (s : State) : State :=
  let p := s.ppu
  ((s.setPpu (frameStart { p with vblank := false, sprite0Hit := false, line := 0 })).setNmi false).setOut
    { s.out with frames := s.out.frames ++ [framePayload p] }

/-- `LineComplete(out)` (R311): the four tests in this order, on the incremented `line`. -/
def lineComplete (s : State) : State :=
  let finished := s.ppu.line
  let s1 := spriteZeroTest finished
    (s.setPpu { s.ppu with dot := s.ppu.dot - Config.dotsPerLine, line := finished + 1 })
  let s2 := if s1.ppu.line ≤ 240 ∧ s1.ppu.line % 8 = 0 ∧ s1.ppu.scrollY.toNat ≤ 240 then buildBackgroundRow s1 else s1
  let s3 := if s2.ppu.line = 241 then vblankStart s2 else s2
  if s3.ppu.line = Config.linesPerFrame then frameEnd s3 else s3

/-- `k` scanlines completed one after another. -/
def linesComplete : Nat → State → State
  | 0, s => s
  | k + 1, s => linesComplete k (lineComplete s)

/-- `PpuRun(n)` (R310). A line completes while `dot` is 341 or more and each takes 341 dots away, so the loop runs
`(dot + n) div 341` times (70_reset_and_hazards.md R388). -/
def ppuRun (n : Nat) (s : State) : State :=
  let d := s.ppu.dot + n
  linesComplete (d / Config.dotsPerLine) (s.setPpu { s.ppu with dot := d })

end Sys2Proof.Machine
end

