-- ==== Sys2Proof/Machine/Ops.lean ====
section
/-! DEFINITION. The CPU bus (20_memory.md R61, R62), 16-bit reads (R76), the stack (R77), the instruction fetch
(00_scope.md R7), taking an interrupt or BRK (60_exceptions.md R302, 45_control_transfer.md R243) and returning from one
(R244). -/

namespace Sys2Proof.Machine

/-! ### The CPU bus -/

/-- What answers a CPU address (R61, R62). -/
inductive Target where
  | ram (i : Nat)
  | ppuReg (k : Nat)
  | dmaPort
  | port (p : Port)
  | audio
  | rom
  | nothing
  deriving DecidableEq, Repr

/-- The rows of R61 and R62, whose conditions and order are the same, first match wins. -/
def route (a : Addr) : Target :=
  let n := a.toNat
  if n < 0x0800 then .ram n
  else if n < 0x2000 then .ram (n % 0x0800)
  else if n < 0x4000 then .ppuReg ((n - 0x2000) % 8)
  else if n = 0x4014 then .dmaPort
  else if n = 0x4016 then .port .one
  else if n = 0x4017 then .port .two
  else if n < 0x4020 then .audio
  else if 0x8000 ≤ n then .rom
  else .nothing

/-- `BusReadCpu(addr)` (R61): the byte and the state after the device's read side effect. -/
def busRead (a : Addr) (s : State) : Byte × State :=
  match route a with
  | .ram i    => (s.ram.read i, s)
  | .ppuReg k =>
    let r := ppuRegRead k s.ppu
    (r.1, s.setPpu r.2)
  | .dmaPort  => (0x00#8, s)
  | .port .one =>
    let r := controllerRead s.port1
    (r.1, s.setPort1 r.2)
  | .port .two =>
    let r := controllerRead s.port2
    (r.1, s.setPort2 r.2)
  | .audio    => (0x00#8, s)
  | .rom      => (prgByte s.cart a, s)
  | .nothing  => (0x00#8, s)

/-- `BusWriteCpu(addr, v)` (R62). -/
def busWrite (a : Addr) (v : Byte) (s : State) : State :=
  match route a with
  | .ram i     => s.setRam (s.ram.write i v)
  | .ppuReg k  => s.setPpu (ppuRegWrite k v s.ppu)
  | .dmaPort   => dmaTrigger v s
  | .port .one => s.setPort1 (controllerWrite s.buttons1 v s.port1)
  | .port .two => s.setPort2 (controllerWrite s.buttons2 v s.port2)
  | .audio     => audioWrite a v s
  | .rom       => s
  | .nothing   => s

/-- The byte a read of `a` would return, with no effect on the state: how claims look at memory. -/
def State.peek (s : State) (a : Addr) : Byte := (busRead a s).1

/-- `Read16(addr)` (R76): the low byte is read first. -/
def read16 (a : Addr) (s : State) : Addr × State :=
  let l := busRead a s
  let h := busRead (addrPlus a 1) l.2
  (word h.1 l.1, h.2)

/-! ### The stack -/

/-- The address of the byte the stack pointer names (10_state.md R21). -/
def stackAddr (sp : Byte) : Addr := word 0x01#8 sp

/-- `Push(b)` (R77). -/
def push (b : Byte) (s : State) : State :=
  let s' := busWrite (stackAddr s.cpu.sp) b s
  s'.setSp (s.cpu.sp - 1#8)

/-- `Push16(w)` (R77). -/
def push16 (w : Addr) (s : State) : State := push (loByte w) (push (hiByte w) s)

/-- `Pull()` (R77). -/
def pull (s : State) : Byte × State :=
  let sp := s.cpu.sp + 1#8
  busRead (stackAddr sp) (s.setSp sp)

/-- `Pull16()` (R77). -/
def pull16 (s : State) : Addr × State :=
  let l := pull s
  let h := pull l.2
  (word h.1 l.1, h.2)

/-! ### Fetching -/

/-- `Fetch8()` (00_scope.md R7). -/
def fetch8 (s : State) : Byte × State :=
  let r := busRead s.cpu.pc s
  (r.1, r.2.setPc (addrPlus s.cpu.pc 1))

/-! ### Taking an exception and returning from one -/

/-- What NMI, IRQ and BRK entry share: the return address `ret` and the status byte `status` are pushed, P.I is set, and
PC is read from the vector (60_exceptions.md R302, R303, 45_control_transfer.md R243). -/
def enterHandler (vector ret : Addr) (status : Byte) (s : State) : State :=
  let s1 := (push status (push16 ret s)).setFlag .i true
  let v := read16 vector s1
  v.2.setPc v.1

/-- `InterruptEntry(vector)` (R302): P is pushed as held, then P.B is cleared. -/
def interruptEntry (vector : Addr) (s : State) : State :=
  (enterHandler vector s.cpu.pc s.cpu.p s).setFlag .b false

/-- Item 1 of the CPU step (40_addressing_modes.md R130; R302 to R304): at most one interrupt is serviced, NMI first;
entry costs INT_ENTRY_CYCLES (R305). -/
def serviceInterrupt (s : State) : State :=
  if s.nmiLatch then (deassertNmi (interruptEntry 0xFFFA#16 s)).charge Config.intEntryCycles
  else if s.irqLatch ∧ ¬ s.flag .i then (deassertIrq (interruptEntry 0xFFFE#16 s)).charge Config.intEntryCycles
  else s

/-- The return of RTI (45_control_transfer.md R244): the status first, then PC; nothing is added to it. -/
def returnFromHandler (s : State) : State :=
  let b := pull s
  let w := pull16 (b.2.setP (loadedStatus b.1))
  w.2.setPc w.1

end Sys2Proof.Machine
end

