-- ==== Sys2Proof/Syntax.lean ====
section
/-! DEFINITION. The instructions (30_encoding.md R100 to R106): operand forms, and one constructor for each mnemonic of
the opcode table. A mnemonic whose rows stand under two numbered rules has one constructor for each rule (NOP: R221 and
R268; SBC: R171 and R269; JMP: R230 and R231); a row's addressing mode and operand bytes are the constructor's operand. -/

namespace Sys2Proof

/-- The 13 addressing modes of R101. -/
inductive Mode where
  | imm | zp | zpx | zpy | rel | imp | abs | abx | aby | acc | izx | izy | ind
  deriving DecidableEq, Repr

/-- An operand in memory, by the mode that gives its effective address (40_addressing_modes.md R132 to R142). -/
inductive Mem where
  | zp  (z : Byte)
  | zpx (z : Byte)
  | zpy (z : Byte)
  | abs (w : Addr)
  | abx (w : Addr)
  | aby (w : Addr)
  | izx (z : Byte)
  | izy (z : Byte)
  deriving DecidableEq, Repr

/-- The operand of a read-class instruction (R146): `Imm(v)` or `Addr(ea)`. -/
inductive Src where
  | imm (v : Byte)
  | mem (m : Mem)
  deriving DecidableEq, Repr

/-- The operand of a shift or rotate (R146): `Acc` or `Addr(ea)`. -/
inductive Dst where
  | acc
  | mem (m : Mem)
  deriving DecidableEq, Repr

/-- The operand of an unofficial no-operation (46_unofficial.md R268). -/
inductive NopArg where
  | imp
  | imm (v : Byte)
  | mem (m : Mem)
  deriving DecidableEq, Repr

/-- The instructions. The reserved encodings (R106) and the unofficial no-operations (R268) carry the opcode byte where
several bytes stand for one mnemonic and form. -/
inductive Instr where
  -- 41_load_store_transfer.md
  | lda (src : Src)    -- R150
  | ldx (src : Src)    -- R151
  | ldy (src : Src)    -- R152
  | sta (dst : Mem)    -- R153
  | stx (dst : Mem)    -- R154
  | sty (dst : Mem)    -- R155
  | tax                -- R156
  | tay                -- R157
  | txa                -- R158
  | tya                -- R159
  | tsx                -- R160
  | txs                -- R161
  -- 42_arithmetic_logic.md
  | adc (src : Src)    -- R170
  | sbc (src : Src)    -- R171
  | and (src : Src)    -- R172
  | ora (src : Src)    -- R173
  | eor (src : Src)    -- R174
  | bit (src : Mem)    -- R175
  | cmp (src : Src)    -- R176
  | cpx (src : Src)    -- R177
  | cpy (src : Src)    -- R178
  | inc (dst : Mem)    -- R179
  | dec (dst : Mem)    -- R180
  | inx                -- R181
  | iny                -- R182
  | dex                -- R183
  | dey                -- R184
  -- 43_shift_rotate.md
  | asl (dst : Dst)    -- R200
  | lsr (dst : Dst)    -- R201
  | rol (dst : Dst)    -- R202
  | ror (dst : Dst)    -- R203
  -- 44_stack_flags.md
  | pha                -- R210
  | php                -- R211
  | pla                -- R212
  | plp                -- R213
  | clc                -- R214
  | sec                -- R215
  | cli                -- R216
  | sei                -- R217
  | cld                -- R218
  | sed                -- R219
  | clv                -- R220
  | nop                -- R221
  -- 45_control_transfer.md
  | jmpAbs (w : Addr)  -- R230
  | jmpInd (w : Addr)  -- R231
  | jsr (w : Addr)     -- R232
  | rts                -- R233
  | bpl (d : Byte)     -- R235
  | bmi (d : Byte)     -- R236
  | bvc (d : Byte)     -- R237
  | bvs (d : Byte)     -- R238
  | bcc (d : Byte)     -- R239
  | bcs (d : Byte)     -- R240
  | bne (d : Byte)     -- R241
  | beq (d : Byte)     -- R242
  | brk                -- R243
  | rti                -- R244
  -- 46_unofficial.md
  | lax (src : Mem)    -- R260
  | sax (dst : Mem)    -- R261
  | dcp (dst : Mem)    -- R262
  | isb (dst : Mem)    -- R263
  | slo (dst : Mem)    -- R264
  | rla (dst : Mem)    -- R265
  | sre (dst : Mem)    -- R266
  | rra (dst : Mem)    -- R267
  | nopUnofficial (op : Byte) (arg : NopArg)  -- R268
  | sbcAlias (v : Byte)                       -- R269
  -- the reserved encodings, R106 and R270
  | kil (op : Byte)
  | anc (op : Byte)
  | alr
  | arr
  | xaa
  | lxa
  | axs
  | ahx (op : Byte)
  | shy
  | shx
  | tas
  | las
  deriving DecidableEq, Repr

/-- The addressing mode of a memory operand. -/
def Mem.mode : Mem → Mode
  | .zp _ => .zp | .zpx _ => .zpx | .zpy _ => .zpy | .abs _ => .abs
  | .abx _ => .abx | .aby _ => .aby | .izx _ => .izx | .izy _ => .izy

/-- The addressing mode of a read-class operand. -/
def Src.mode : Src → Mode
  | .imm _ => .imm
  | .mem m => m.mode

/-- The addressing mode of a shift's operand. -/
def Dst.mode : Dst → Mode
  | .acc => .acc
  | .mem m => m.mode

/-- The addressing mode of an unofficial no-operation. -/
def NopArg.mode : NopArg → Mode
  | .imp => .imp
  | .imm _ => .imm
  | .mem m => m.mode

end Sys2Proof
end

