-- ==== Sys2Proof/Machine/Operands.lean ====
section
/-! DEFINITION. Every operand form: effective addresses and the extra-cycle flag (40_addressing_modes.md R131 to R144),
the access classes (R146) and the base cycles of each class and mode (30_encoding.md R104, R107). An operand's bytes are
in the instruction and PC is already past them. -/

namespace Sys2Proof.Machine

/-- What `Resolve` gives for a mode with an address (R130 item 4): the effective address, the extra-cycle flag, and the
state after the pointer reads. -/
structure Resolved where
  ea    : Addr
  extra : Nat
  post  : State

/-- 1 when the pages differ (R138, R139, R142, R135). -/
def pageCross (a b : Addr) : Nat := if hiByte a = hiByte b then 0 else 1

/-- The two bytes of a zero-page pointer, the second at `u8(p + 1)` (R141, R142). -/
def readPointer (p : Byte) (s : State) : Addr × State :=
  let l := busRead (zext p) s
  let h := busRead (zext (p + 1#8)) l.2
  (word h.1 l.1, h.2)

/-- Effective address, extra-cycle flag and state after the pointer reads (R132 to R134, R137 to R139, R141, R142). -/
def resolve (m : Mem) (s : State) : Resolved :=
  match m with
  | .zp z  => ⟨zext z, 0, s⟩
  | .zpx z => ⟨zext (z + s.cpu.x), 0, s⟩
  | .zpy z => ⟨zext (z + s.cpu.y), 0, s⟩
  | .abs w => ⟨w, 0, s⟩
  | .abx w => ⟨w + zext s.cpu.x, pageCross (w + zext s.cpu.x) w, s⟩
  | .aby w => ⟨w + zext s.cpu.y, pageCross (w + zext s.cpu.y) w, s⟩
  | .izx z =>
    let p := readPointer (z + s.cpu.x) s
    ⟨p.1, 0, p.2⟩
  | .izy z =>
    let p := readPointer z s
    ⟨p.1 + zext s.cpu.y, pageCross (p.1 + zext s.cpu.y) p.1, p.2⟩

/-- The pointer of JMP indirect (R143): the high byte from the same page as the low byte. -/
def resolveIndirect (w : Addr) (s : State) : Addr × State :=
  let l := busRead w s
  let h := busRead (word (hiByte w) (loByte w + 1#8)) l.2
  (word h.1 l.1, h.2)

/-- The target of a relative branch from the PC after its operand (R135). -/
def branchTarget (base : Addr) (d : Byte) : Addr := base + sext8 d

/-- An operand's value, the extra-cycle flag, and the state after it is read. -/
structure Operand where
  value : Byte
  extra : Nat
  post  : State

/-- The value M of a memory operand: one data read at the effective address (R146). -/
def readMem (m : Mem) (s : State) : Operand :=
  let r := resolve m s
  let b := busRead r.ea r.post
  ⟨b.1, r.extra, b.2⟩

/-- The value M of a read-class operand (R131, R146). -/
def readSrc (src : Src) (s : State) : Operand :=
  match src with
  | .imm v => ⟨v, 0, s⟩
  | .mem m => readMem m s

/-! ### Base cycles by class and mode (R104, R107) -/

/-- A read-class instruction's base cycles. -/
def readBase : Mem → Nat
  | .zp _ => 3 | .zpx _ => 4 | .zpy _ => 4 | .abs _ => 4 | .abx _ => 4 | .aby _ => 4 | .izx _ => 6 | .izy _ => 5

/-- The same with the immediate form. -/
def srcBase : Src → Nat
  | .imm _ => 2
  | .mem m => readBase m

/-- A write-class instruction's base cycles. -/
def writeBase : Mem → Nat
  | .zp _ => 3 | .zpx _ => 4 | .zpy _ => 4 | .abs _ => 4 | .abx _ => 5 | .aby _ => 5 | .izx _ => 6 | .izy _ => 6

/-- An RMW-class instruction's base cycles. -/
def rmwBase : Mem → Nat
  | .zp _ => 5 | .zpx _ => 6 | .zpy _ => 6 | .abs _ => 6 | .abx _ => 7 | .aby _ => 7 | .izx _ => 8 | .izy _ => 8

/-! ### The access classes (R146) -/

/-- A read-class instruction with a memory operand: one data read, then `use` of the value. -/
def readMemClass (base : Nat) (m : Mem) (use : Byte → State → State) (s : State) : State :=
  let o := readMem m s
  (use o.value o.post).charge (base + o.extra)

/-- A read-class instruction: the operand's value, then `use` of it. -/
def readClass (base : Nat) (src : Src) (use : Byte → State → State) (s : State) : State :=
  let o := readSrc src s
  (use o.value o.post).charge (base + o.extra)

/-- A write-class instruction: one data write of `v`, no data read. -/
def writeClass (base : Nat) (m : Mem) (v : Byte) (s : State) : State :=
  let r := resolve m s
  (busWrite r.ea v r.post).charge (base + r.extra)

/-- A read-modify-write instruction in memory: one data read of `m`, one data write of `new m`, then `after m (new m)`,
which writes registers and flags only. `new` is given the carry before the instruction. -/
def rmwClass (base : Nat) (mem : Mem) (new : Bool → Byte → Byte) (after : Byte → Byte → State → State) (s : State) : State :=
  let r := resolve mem s
  let b := busRead r.ea r.post
  let v := new (s.flag .c) b.1
  (after b.1 v (busWrite r.ea v b.2)).charge (base + r.extra)

/-- A shift or rotate: on A with no memory access and 2 cycles, or in memory. -/
def shiftClass (dst : Dst) (new : Bool → Byte → Byte) (after : Byte → Byte → State → State) (s : State) : State :=
  match dst with
  | .acc =>
    let v := new (s.flag .c) s.cpu.a
    (after s.cpu.a v (s.setA v)).charge 2
  | .mem m => rmwClass (rmwBase m) m new after s

/-- An instruction with no operand: its effect and its base cycles. -/
def impliedClass (base : Nat) (f : State → State) (s : State) : State := (f s).charge base

/-- The common branch rule (45_control_transfer.md R234): the extra cycle is charged taken or not. -/
def branchClass (taken : Bool) (d : Byte) (s : State) : State :=
  let target := branchTarget s.cpu.pc d
  let extra := pageCross target s.cpu.pc
  if taken then (s.setPc target).charge (2 + extra + 1) else s.charge (2 + extra)

end Sys2Proof.Machine
end

