-- ==== Sys2Proof/Machine/Arith.lean ====
section
/-! DEFINITION. Arithmetic, logic, compare, increment and decrement (42_arithmetic_logic.md R170 to R186). -/

namespace Sys2Proof.Machine

/-- ADC (R170). -/
def execAdc (src : Src) (s : State) : Host.Outcome State Fault Refusal :=
  .next (readClass (srcBase src) src addWithCarry s)

/-- SBC (R171). -/
def execSbc (src : Src) (s : State) : Host.Outcome State Fault Refusal :=
  .next (readClass (srcBase src) src subWithBorrow s)

/-- AND (R172). -/
def execAnd (src : Src) (s : State) : Host.Outcome State Fault Refusal :=
  .next (readClass (srcBase src) src (fun m t => (t.setA (t.cpu.a &&& m)).setZN (t.cpu.a &&& m)) s)

/-- ORA (R173). -/
def execOra (src : Src) (s : State) : Host.Outcome State Fault Refusal :=
  .next (readClass (srcBase src) src (fun m t => (t.setA (t.cpu.a ||| m)).setZN (t.cpu.a ||| m)) s)

/-- EOR (R174). -/
def execEor (src : Src) (s : State) : Host.Outcome State Fault Refusal :=
  .next (readClass (srcBase src) src (fun m t => (t.setA (t.cpu.a ^^^ m)).setZN (t.cpu.a ^^^ m)) s)

/-- BIT (R175): A is not changed. -/
def execBit (src : Mem) (s : State) : Host.Outcome State Fault Refusal :=
  .next (readMemClass (readBase src) src bitTest s)

/-- CMP (R176). -/
def execCmp (src : Src) (s : State) : Host.Outcome State Fault Refusal :=
  .next (readClass (srcBase src) src (fun m t => compareBytes t.cpu.a m t) s)

/-- CPX (R177). -/
def execCpx (src : Src) (s : State) : Host.Outcome State Fault Refusal :=
  .next (readClass (srcBase src) src (fun m t => compareBytes t.cpu.x m t) s)

/-- CPY (R178). -/
def execCpy (src : Src) (s : State) : Host.Outcome State Fault Refusal :=
  .next (readClass (srcBase src) src (fun m t => compareBytes t.cpu.y m t) s)

/-- INC (R179): wraps, C and V unchanged. -/
def execInc (dst : Mem) (s : State) : Host.Outcome State Fault Refusal :=
  .next (rmwClass (rmwBase dst) dst (fun _ m => m + 1#8) (fun _ r t => t.setZN r) s)

/-- DEC (R180). -/
def execDec (dst : Mem) (s : State) : Host.Outcome State Fault Refusal :=
  .next (rmwClass (rmwBase dst) dst (fun _ m => m - 1#8) (fun _ r t => t.setZN r) s)

/-- INX (R181). -/
def execInx (s : State) : Host.Outcome State Fault Refusal :=
  .next (impliedClass 2 (fun t => (t.setX (t.cpu.x + 1#8)).setZN (t.cpu.x + 1#8)) s)

/-- INY (R182). -/
def execIny (s : State) : Host.Outcome State Fault Refusal :=
  .next (impliedClass 2 (fun t => (t.setY (t.cpu.y + 1#8)).setZN (t.cpu.y + 1#8)) s)

/-- DEX (R183). -/
def execDex (s : State) : Host.Outcome State Fault Refusal :=
  .next (impliedClass 2 (fun t => (t.setX (t.cpu.x - 1#8)).setZN (t.cpu.x - 1#8)) s)

/-- DEY (R184). -/
def execDey (s : State) : Host.Outcome State Fault Refusal :=
  .next (impliedClass 2 (fun t => (t.setY (t.cpu.y - 1#8)).setZN (t.cpu.y - 1#8)) s)

end Sys2Proof.Machine
end

