-- ==== Sys2Proof/Machine/Control.lean ====
section
/-! DEFINITION. Jumps, calls, returns, branches, BRK and RTI (45_control_transfer.md R230 to R244). -/

namespace Sys2Proof.Machine

/-- JMP absolute (R230). -/
def execJmpAbs (w : Addr) (s : State) : Host.Outcome State Fault Refusal :=
  .next ((s.setPc w).charge 3)

/-- The effect of JMP indirect: PC read through the pointer (40_addressing_modes.md R143). -/
def jumpIndirect (w : Addr) (s : State) : State :=
  let t := resolveIndirect w s
  t.2.setPc t.1

/-- JMP indirect (R231). -/
def execJmpInd (w : Addr) (s : State) : Host.Outcome State Fault Refusal :=
  .next ((jumpIndirect w s).charge 5)

/-- JSR (R232): the address of its own last byte is pushed. -/
def execJsr (w : Addr) (s : State) : Host.Outcome State Fault Refusal :=
  .next (((push16 (s.cpu.pc - 1#16) s).setPc w).charge 6)

/-- The effect of RTS: PC <- Pull16() + 1. -/
def returnFromCall (s : State) : State :=
  let w := pull16 s
  w.2.setPc (addrPlus w.1 1)

/-- RTS (R233). -/
def execRts (s : State) : Host.Outcome State Fault Refusal :=
  .next (impliedClass 6 returnFromCall s)

/-- BPL (R235): taken when N = 0. -/
def execBpl (d : Byte) (s : State) : Host.Outcome State Fault Refusal :=
  .next (branchClass (!s.flag .n) d s)

/-- BMI (R236): taken when N = 1. -/
def execBmi (d : Byte) (s : State) : Host.Outcome State Fault Refusal :=
  .next (branchClass (s.flag .n) d s)

/-- BVC (R237): taken when V = 0. -/
def execBvc (d : Byte) (s : State) : Host.Outcome State Fault Refusal :=
  .next (branchClass (!s.flag .v) d s)

/-- BVS (R238): taken when V = 1. -/
def execBvs (d : Byte) (s : State) : Host.Outcome State Fault Refusal :=
  .next (branchClass (s.flag .v) d s)

/-- BCC (R239): taken when C = 0. -/
def execBcc (d : Byte) (s : State) : Host.Outcome State Fault Refusal :=
  .next (branchClass (!s.flag .c) d s)

/-- BCS (R240): taken when C = 1. -/
def execBcs (d : Byte) (s : State) : Host.Outcome State Fault Refusal :=
  .next (branchClass (s.flag .c) d s)

/-- BNE (R241): taken when Z = 0. -/
def execBne (d : Byte) (s : State) : Host.Outcome State Fault Refusal :=
  .next (branchClass (!s.flag .z) d s)

/-- BEQ (R242): taken when Z = 1. -/
def execBeq (d : Byte) (s : State) : Host.Outcome State Fault Refusal :=
  .next (branchClass (s.flag .z) d s)

/-- BRK (R243): the byte after the opcode is skipped by the return address; P.B is not changed. -/
def execBrk (s : State) : Host.Outcome State Fault Refusal :=
  .next (impliedClass 7
    (fun t => enterHandler 0xFFFE#16 (addrPlus t.cpu.pc 1) (pushedStatus t.cpu.p) t) s)

/-- RTI (R244). -/
def execRti (s : State) : Host.Outcome State Fault Refusal :=
  .next (impliedClass 6 returnFromHandler s)

end Sys2Proof.Machine
end

