-- ==== Sys2Proof/Machine/LoadStore.lean ====
section
/-! DEFINITION. Loads, stores and register transfers (41_load_store_transfer.md R150 to R161). -/

namespace Sys2Proof.Machine

/-- LDA (R150): A <- M; SetZN(A). -/
def execLda (src : Src) (s : State) : Host.Outcome State Fault Refusal :=
  .next (readClass (srcBase src) src (fun m t => (t.setA m).setZN m) s)

/-- LDX (R151): X <- M; SetZN(X). -/
def execLdx (src : Src) (s : State) : Host.Outcome State Fault Refusal :=
  .next (readClass (srcBase src) src (fun m t => (t.setX m).setZN m) s)

/-- LDY (R152): Y <- M; SetZN(Y). -/
def execLdy (src : Src) (s : State) : Host.Outcome State Fault Refusal :=
  .next (readClass (srcBase src) src (fun m t => (t.setY m).setZN m) s)

/-- STA (R153): MemWrite(ea, 1, A). -/
def execSta (dst : Mem) (s : State) : Host.Outcome State Fault Refusal :=
  .next (writeClass (writeBase dst) dst s.cpu.a s)

/-- STX (R154): MemWrite(ea, 1, X). -/
def execStx (dst : Mem) (s : State) : Host.Outcome State Fault Refusal :=
  .next (writeClass (writeBase dst) dst s.cpu.x s)

/-- STY (R155): MemWrite(ea, 1, Y). -/
def execSty (dst : Mem) (s : State) : Host.Outcome State Fault Refusal :=
  .next (writeClass (writeBase dst) dst s.cpu.y s)

/-- TAX (R156). -/
def execTax (s : State) : Host.Outcome State Fault Refusal :=
  .next (impliedClass 2 (fun t => (t.setX t.cpu.a).setZN t.cpu.a) s)

/-- TAY (R157). -/
def execTay (s : State) : Host.Outcome State Fault Refusal :=
  .next (impliedClass 2 (fun t => (t.setY t.cpu.a).setZN t.cpu.a) s)

/-- TXA (R158). -/
def execTxa (s : State) : Host.Outcome State Fault Refusal :=
  .next (impliedClass 2 (fun t => (t.setA t.cpu.x).setZN t.cpu.x) s)

/-- TYA (R159). -/
def execTya (s : State) : Host.Outcome State Fault Refusal :=
  .next (impliedClass 2 (fun t => (t.setA t.cpu.y).setZN t.cpu.y) s)

/-- TSX (R160): the 8-bit SP. -/
def execTsx (s : State) : Host.Outcome State Fault Refusal :=
  .next (impliedClass 2 (fun t => (t.setX t.cpu.sp).setZN t.cpu.sp) s)

/-- TXS (R161): no flag is written. -/
def execTxs (s : State) : Host.Outcome State Fault Refusal :=
  .next (impliedClass 2 (fun t => t.setSp t.cpu.x) s)

end Sys2Proof.Machine
end

