-- ==== Sys2Proof/Machine/Shift.lean ====
section
/-! DEFINITION. Shifts and rotates (43_shift_rotate.md R200 to R203): each on A or in memory, by exactly one bit. -/

namespace Sys2Proof.Machine

/-- ASL (R200): C is the bit shifted out of the top. -/
def execAsl (dst : Dst) (s : State) : Host.Outcome State Fault Refusal :=
  .next (shiftClass dst (fun _ m => aslByte m) (fun m r t => (t.setFlag .c (bit m 7)).setZN r) s)

/-- LSR (R201): N is always 0. -/
def execLsr (dst : Dst) (s : State) : Host.Outcome State Fault Refusal :=
  .next (shiftClass dst (fun _ m => lsrByte m)
    (fun m r t => ((t.setFlag .c (bit m 0)).setFlag .z (decide (r = 0#8))).setFlag .n false) s)

/-- ROL (R202): the old carry enters bit 0. -/
def execRol (dst : Dst) (s : State) : Host.Outcome State Fault Refusal :=
  .next (shiftClass dst rolByte (fun m r t => (t.setFlag .c (bit m 7)).setZN r) s)

/-- ROR (R203): the old carry enters bit 7 and N. -/
def execRor (dst : Dst) (s : State) : Host.Outcome State Fault Refusal :=
  .next (shiftClass dst rorByte (fun m r t => (t.setFlag .c (bit m 0)).setZN r) s)

end Sys2Proof.Machine
end

