-- ==== Sys2Proof/Machine/StackFlags.lean ====
section
/-! DEFINITION. Stack, flag and no-operation instructions (44_stack_flags.md R210 to R221). -/

namespace Sys2Proof.Machine

/-- PHA (R210). -/
def execPha (s : State) : Host.Outcome State Fault Refusal :=
  .next (impliedClass 3 (fun t => push t.cpu.a t) s)

/-- PHP (R211): the pushed byte has bits 4 and 5 set; P itself is not changed. -/
def execPhp (s : State) : Host.Outcome State Fault Refusal :=
  .next (impliedClass 3 (fun t => push (pushedStatus t.cpu.p) t) s)

/-- The effect of PLA: A <- Pull(); SetZN(A). -/
def pullA (s : State) : State :=
  let b := pull s
  (b.2.setA b.1).setZN b.1

/-- PLA (R212). -/
def execPla (s : State) : Host.Outcome State Fault Refusal :=
  .next (impliedClass 4 pullA s)

/-- The effect of PLP: P loaded from the pulled byte (R213). -/
def pullP (s : State) : State :=
  let b := pull s
  b.2.setP (loadedStatus b.1)

/-- PLP (R213). -/
def execPlp (s : State) : Host.Outcome State Fault Refusal :=
  .next (impliedClass 4 pullP s)

/-- CLC (R214). -/
def execClc (s : State) : Host.Outcome State Fault Refusal :=
  .next (impliedClass 2 (fun t => t.setFlag .c false) s)

/-- SEC (R215). -/
def execSec (s : State) : Host.Outcome State Fault Refusal :=
  .next (impliedClass 2 (fun t => t.setFlag .c true) s)

/-- CLI (R216). -/
def execCli (s : State) : Host.Outcome State Fault Refusal :=
  .next (impliedClass 2 (fun t => t.setFlag .i false) s)

/-- SEI (R217). -/
def execSei (s : State) : Host.Outcome State Fault Refusal :=
  .next (impliedClass 2 (fun t => t.setFlag .i true) s)

/-- CLD (R218). -/
def execCld (s : State) : Host.Outcome State Fault Refusal :=
  .next (impliedClass 2 (fun t => t.setFlag .d false) s)

/-- SED (R219). -/
def execSed (s : State) : Host.Outcome State Fault Refusal :=
  .next (impliedClass 2 (fun t => t.setFlag .d true) s)

/-- CLV (R220). -/
def execClv (s : State) : Host.Outcome State Fault Refusal :=
  .next (impliedClass 2 (fun t => t.setFlag .v false) s)

/-- NOP (R221): nothing but the advance of PC in the fetch. -/
def execNop (s : State) : Host.Outcome State Fault Refusal :=
  .next (impliedClass 2 (fun t => t) s)

end Sys2Proof.Machine
end

