-- ==== Sys2Proof/Machine/Unofficial.lean ====
section
/-! DEFINITION. Unofficial opcodes and reserved encodings (46_unofficial.md R260 to R270). -/

namespace Sys2Proof.Machine

/-- LAX (R260). -/
def execLax (src : Mem) (s : State) : Host.Outcome State Fault Refusal :=
  .next (readMemClass (readBase src) src (fun m t => ((t.setA m).setX m).setZN m) s)

/-- SAX (R261). -/
def execSax (dst : Mem) (s : State) : Host.Outcome State Fault Refusal :=
  .next (writeClass (writeBase dst) dst (s.cpu.a &&& s.cpu.x) s)

/-- DCP (R262): decrement, then compare A with the written byte. -/
def execDcp (dst : Mem) (s : State) : Host.Outcome State Fault Refusal :=
  .next (rmwClass (rmwBase dst) dst (fun _ m => m - 1#8)
    (fun _ r t => compareBytes t.cpu.a r t) s)

/-- ISB (R263): increment, then subtract the written byte. -/
def execIsb (dst : Mem) (s : State) : Host.Outcome State Fault Refusal :=
  .next (rmwClass (rmwBase dst) dst (fun _ m => m + 1#8)
    (fun _ r t => subWithBorrow r t) s)

/-- SLO (R264): shift left, then OR. -/
def execSlo (dst : Mem) (s : State) : Host.Outcome State Fault Refusal :=
  .next (rmwClass (rmwBase dst) dst (fun _ m => aslByte m)
    (fun m r t => ((t.setFlag .c (bit m 7)).setA (t.cpu.a ||| r)).setZN (t.cpu.a ||| r)) s)

/-- RLA (R265): rotate left, then AND. -/
def execRla (dst : Mem) (s : State) : Host.Outcome State Fault Refusal :=
  .next (rmwClass (rmwBase dst) dst rolByte
    (fun m r t => ((t.setFlag .c (bit m 7)).setA (t.cpu.a &&& r)).setZN (t.cpu.a &&& r)) s)

/-- SRE (R266): shift right, then exclusive-OR; N and Z from A. -/
def execSre (dst : Mem) (s : State) : Host.Outcome State Fault Refusal :=
  .next (rmwClass (rmwBase dst) dst (fun _ m => lsrByte m)
    (fun m r t => ((t.setFlag .c (bit m 0)).setA (t.cpu.a ^^^ r)).setZN (t.cpu.a ^^^ r)) s)

/-- RRA (R267): rotate right, then add with the carry the rotate produced. -/
def execRra (dst : Mem) (s : State) : Host.Outcome State Fault Refusal :=
  .next (rmwClass (rmwBase dst) dst rorByte
    (fun m r t => addWithCarry r (t.setFlag .c (bit m 0))) s)

/-- The cycles of an unofficial no-operation: its mode's base and extra cycle (R268); nothing is read at the address. -/
def nopCost (arg : NopArg) (s : State) : Nat :=
  match arg with
  | .imp => 2
  | .imm _ => 2
  | .mem m => readBase m + (resolve m s).extra

/-- The state after the operand of an unofficial no-operation is resolved. -/
def nopResolve (arg : NopArg) (s : State) : State :=
  match arg with
  | .imp => s
  | .imm _ => s
  | .mem m => (resolve m s).post

/-- The unofficial no-operations (R268). -/
def execNopUnofficial (_op : Byte) (arg : NopArg) (s : State) : Host.Outcome State Fault Refusal :=
  .next ((nopResolve arg s).charge (nopCost arg s))

/-- 0xEB (R269): identical to SBC immediate. -/
def execSbcAlias (v : Byte) (s : State) : Host.Outcome State Fault Refusal :=
  .next (readClass 2 (.imm v) subWithBorrow s)

/-- `raise IllegalOpcode(op)` (R270; 60_exceptions.md R306): nothing has changed but PC, one past the opcode. -/
def illegal (op : Byte) (s : State) : Host.Outcome State Fault Refusal := .fault (.illegalOpcode op s)

/-- KIL: reserved (30_encoding.md R106, R270). -/
def execKil (op : Byte) (s : State) : Host.Outcome State Fault Refusal :=
  illegal op s

/-- ANC: reserved (30_encoding.md R106, R270). -/
def execAnc (op : Byte) (s : State) : Host.Outcome State Fault Refusal :=
  illegal op s

/-- ALR: reserved (30_encoding.md R106, R270). -/
def execAlr (s : State) : Host.Outcome State Fault Refusal :=
  illegal 0x4B#8 s

/-- ARR: reserved (30_encoding.md R106, R270). -/
def execArr (s : State) : Host.Outcome State Fault Refusal :=
  illegal 0x6B#8 s

/-- XAA: reserved (30_encoding.md R106, R270). -/
def execXaa (s : State) : Host.Outcome State Fault Refusal :=
  illegal 0x8B#8 s

/-- LXA: reserved (30_encoding.md R106, R270). -/
def execLxa (s : State) : Host.Outcome State Fault Refusal :=
  illegal 0xAB#8 s

/-- AXS: reserved (30_encoding.md R106, R270). -/
def execAxs (s : State) : Host.Outcome State Fault Refusal :=
  illegal 0xCB#8 s

/-- AHX: reserved (30_encoding.md R106, R270). -/
def execAhx (op : Byte) (s : State) : Host.Outcome State Fault Refusal :=
  illegal op s

/-- SHY: reserved (30_encoding.md R106, R270). -/
def execShy (s : State) : Host.Outcome State Fault Refusal :=
  illegal 0x9C#8 s

/-- SHX: reserved (30_encoding.md R106, R270). -/
def execShx (s : State) : Host.Outcome State Fault Refusal :=
  illegal 0x9E#8 s

/-- TAS: reserved (30_encoding.md R106, R270). -/
def execTas (s : State) : Host.Outcome State Fault Refusal :=
  illegal 0x9B#8 s

/-- LAS: reserved (30_encoding.md R106, R270). -/
def execLas (s : State) : Host.Outcome State Fault Refusal :=
  illegal 0xBB#8 s

end Sys2Proof.Machine
end

