-- ==== Sys2Proof/WellFormed.lean ====
section
/-! DEFINITION. Which instructions have an encoding: each instruction's addressing modes, from the "Encodings" of its own
rule (41_load_store_transfer.md to 46_unofficial.md), and the opcode bytes of the no-operations and the reserved
encodings (30_encoding.md R105, R106). -/

namespace Sys2Proof

/-- The opcode bytes of an unofficial no-operation in each mode (46_unofficial.md R268). -/
def nopOpcodes : Mode → List Byte
  | .imp => [0x1A, 0x3A, 0x5A, 0x7A, 0xDA, 0xFA]
  | .imm => [0x80, 0x82, 0x89, 0xC2, 0xE2]
  | .zp  => [0x04, 0x44, 0x64]
  | .zpx => [0x14, 0x34, 0x54, 0x74, 0xD4, 0xF4]
  | .abs => [0x0C]
  | .abx => [0x1C, 0x3C, 0x5C, 0x7C, 0xDC, 0xFC]
  | .zpy | .rel | .aby | .acc | .izx | .izy | .ind => []

/-- The halting encodings of 30_encoding.md R106. -/
def kilOpcodes : List Byte :=
  [0x02, 0x12, 0x22, 0x32, 0x42, 0x52, 0x62, 0x72, 0x92, 0xB2, 0xD2, 0xF2]

/-- The instruction is one that some bytes encode. -/
def Instr.wellFormed : Instr → Bool
  | .lda s | .adc s | .sbc s | .and s | .ora s | .eor s | .cmp s =>
      [Mode.imm, .zp, .zpx, .abs, .abx, .aby, .izx, .izy].contains s.mode
  | .ldx s => [Mode.imm, .zp, .zpy, .abs, .aby].contains s.mode
  | .ldy s => [Mode.imm, .zp, .zpx, .abs, .abx].contains s.mode
  | .cpx s | .cpy s => [Mode.imm, .zp, .abs].contains s.mode
  | .bit m => [Mode.zp, .abs].contains m.mode
  | .sta m => [Mode.zp, .zpx, .abs, .abx, .aby, .izx, .izy].contains m.mode
  | .stx m => [Mode.zp, .zpy, .abs].contains m.mode
  | .sty m => [Mode.zp, .zpx, .abs].contains m.mode
  | .inc m | .dec m => [Mode.zp, .zpx, .abs, .abx].contains m.mode
  | .asl d | .lsr d | .rol d | .ror d => [Mode.acc, .zp, .zpx, .abs, .abx].contains d.mode
  | .lax m => [Mode.zp, .zpy, .abs, .aby, .izx, .izy].contains m.mode
  | .sax m => [Mode.zp, .zpy, .abs, .izx].contains m.mode
  | .dcp m | .isb m | .slo m | .rla m | .sre m | .rra m =>
      [Mode.zp, .zpx, .abs, .abx, .aby, .izx, .izy].contains m.mode
  | .nopUnofficial op arg => (nopOpcodes arg.mode).contains op
  | .kil op => kilOpcodes.contains op
  | .anc op => [0x0B#8, 0x2B#8].contains op
  | .ahx op => [0x93#8, 0x9F#8].contains op
  | .tax | .tay | .txa | .tya | .tsx | .txs | .inx | .iny | .dex | .dey => true
  | .pha | .php | .pla | .plp | .clc | .sec | .cli | .sei | .cld | .sed | .clv | .nop => true
  | .jmpAbs _ | .jmpInd _ | .jsr _ | .rts | .brk | .rti => true
  | .bpl _ | .bmi _ | .bvc _ | .bvs _ | .bcc _ | .bcs _ | .bne _ | .beq _ => true
  | .sbcAlias _ | .alr | .arr | .xaa | .lxa | .axs | .shy | .shx | .tas | .las => true

end Sys2Proof
end

