-- ==== Sys2Proof/Decode.lean ====
section
/-! DEFINITION. Decoding, total on any bytes, from the opcode matrix of 30_encoding.md R104 (row by row, as it is
printed), and an encoder from the list by mnemonic that follows the matrix there. The two tables are separate texts of
the spec, so the round trip holds each against the other. -/

namespace Sys2Proof

/-- How many operand bytes a mode takes (30_encoding.md R101). -/
def Mode.operandBytes : Mode → Nat
  | .imp | .acc => 0
  | .imm | .zp | .zpx | .zpy | .rel | .izx | .izy => 1
  | .abs | .abx | .aby | .ind => 2

/-- How many bytes are fetched for the instruction: the opcode and its mode's operand bytes (R100, R101). Of a reserved
encoding the opcode byte only (46_unofficial.md R270: no operand is fetched). -/
def Instr.length : Instr → Nat
  | .lda s | .ldx s | .ldy s | .adc s | .sbc s | .and s | .ora s | .eor s | .cmp s | .cpx s | .cpy s =>
      1 + s.mode.operandBytes
  | .sta m | .stx m | .sty m | .bit m | .inc m | .dec m => 1 + m.mode.operandBytes
  | .lax m | .sax m | .dcp m | .isb m | .slo m | .rla m | .sre m | .rra m => 1 + m.mode.operandBytes
  | .asl d | .lsr d | .rol d | .ror d => 1 + d.mode.operandBytes
  | .nopUnofficial _ arg => 1 + arg.mode.operandBytes
  | .tax | .tay | .txa | .tya | .tsx | .txs | .inx | .iny | .dex | .dey => 1
  | .pha | .php | .pla | .plp | .clc | .sec | .cli | .sei | .cld | .sed | .clv | .nop => 1
  | .rts | .brk | .rti => 1
  | .jmpAbs _ | .jmpInd _ | .jsr _ => 3
  | .bpl _ | .bmi _ | .bvc _ | .bvs _ | .bcc _ | .bcs _ | .bne _ | .beq _ => 2
  | .sbcAlias _ => 2
  | .kil _ | .anc _ | .alr | .arr | .xaa | .lxa | .axs | .ahx _ | .shy | .shx | .tas | .las => 1

/-- Row 0x of R104. `l` is byte 1 and `h` byte 2 (R102). -/
def decodeRow0 (col : Nat) (l h : Byte) : Instr :=
  match col with
  | 0x0 => .brk
  | 0x1 => .ora (.mem (.izx l))
  | 0x2 => .kil 0x02
  | 0x3 => .slo (.izx l)
  | 0x4 => .nopUnofficial 0x04 (.mem (.zp l))
  | 0x5 => .ora (.mem (.zp l))
  | 0x6 => .asl (.mem (.zp l))
  | 0x7 => .slo (.zp l)
  | 0x8 => .php
  | 0x9 => .ora (.imm l)
  | 0xA => .asl .acc
  | 0xB => .anc 0x0B
  | 0xC => .nopUnofficial 0x0C (.mem (.abs (word h l)))
  | 0xD => .ora (.mem (.abs (word h l)))
  | 0xE => .asl (.mem (.abs (word h l)))
  | _ => .slo (.abs (word h l))

/-- Row 1x of R104. `l` is byte 1 and `h` byte 2 (R102). -/
def decodeRow1 (col : Nat) (l h : Byte) : Instr :=
  match col with
  | 0x0 => .bpl l
  | 0x1 => .ora (.mem (.izy l))
  | 0x2 => .kil 0x12
  | 0x3 => .slo (.izy l)
  | 0x4 => .nopUnofficial 0x14 (.mem (.zpx l))
  | 0x5 => .ora (.mem (.zpx l))
  | 0x6 => .asl (.mem (.zpx l))
  | 0x7 => .slo (.zpx l)
  | 0x8 => .clc
  | 0x9 => .ora (.mem (.aby (word h l)))
  | 0xA => .nopUnofficial 0x1A .imp
  | 0xB => .slo (.aby (word h l))
  | 0xC => .nopUnofficial 0x1C (.mem (.abx (word h l)))
  | 0xD => .ora (.mem (.abx (word h l)))
  | 0xE => .asl (.mem (.abx (word h l)))
  | _ => .slo (.abx (word h l))

/-- Row 2x of R104. `l` is byte 1 and `h` byte 2 (R102). -/
def decodeRow2 (col : Nat) (l h : Byte) : Instr :=
  match col with
  | 0x0 => .jsr (word h l)
  | 0x1 => .and (.mem (.izx l))
  | 0x2 => .kil 0x22
  | 0x3 => .rla (.izx l)
  | 0x4 => .bit (.zp l)
  | 0x5 => .and (.mem (.zp l))
  | 0x6 => .rol (.mem (.zp l))
  | 0x7 => .rla (.zp l)
  | 0x8 => .plp
  | 0x9 => .and (.imm l)
  | 0xA => .rol .acc
  | 0xB => .anc 0x2B
  | 0xC => .bit (.abs (word h l))
  | 0xD => .and (.mem (.abs (word h l)))
  | 0xE => .rol (.mem (.abs (word h l)))
  | _ => .rla (.abs (word h l))

/-- Row 3x of R104. `l` is byte 1 and `h` byte 2 (R102). -/
def decodeRow3 (col : Nat) (l h : Byte) : Instr :=
  match col with
  | 0x0 => .bmi l
  | 0x1 => .and (.mem (.izy l))
  | 0x2 => .kil 0x32
  | 0x3 => .rla (.izy l)
  | 0x4 => .nopUnofficial 0x34 (.mem (.zpx l))
  | 0x5 => .and (.mem (.zpx l))
  | 0x6 => .rol (.mem (.zpx l))
  | 0x7 => .rla (.zpx l)
  | 0x8 => .sec
  | 0x9 => .and (.mem (.aby (word h l)))
  | 0xA => .nopUnofficial 0x3A .imp
  | 0xB => .rla (.aby (word h l))
  | 0xC => .nopUnofficial 0x3C (.mem (.abx (word h l)))
  | 0xD => .and (.mem (.abx (word h l)))
  | 0xE => .rol (.mem (.abx (word h l)))
  | _ => .rla (.abx (word h l))

/-- Row 4x of R104. `l` is byte 1 and `h` byte 2 (R102). -/
def decodeRow4 (col : Nat) (l h : Byte) : Instr :=
  match col with
  | 0x0 => .rti
  | 0x1 => .eor (.mem (.izx l))
  | 0x2 => .kil 0x42
  | 0x3 => .sre (.izx l)
  | 0x4 => .nopUnofficial 0x44 (.mem (.zp l))
  | 0x5 => .eor (.mem (.zp l))
  | 0x6 => .lsr (.mem (.zp l))
  | 0x7 => .sre (.zp l)
  | 0x8 => .pha
  | 0x9 => .eor (.imm l)
  | 0xA => .lsr .acc
  | 0xB => .alr
  | 0xC => .jmpAbs (word h l)
  | 0xD => .eor (.mem (.abs (word h l)))
  | 0xE => .lsr (.mem (.abs (word h l)))
  | _ => .sre (.abs (word h l))

/-- Row 5x of R104. `l` is byte 1 and `h` byte 2 (R102). -/
def decodeRow5 (col : Nat) (l h : Byte) : Instr :=
  match col with
  | 0x0 => .bvc l
  | 0x1 => .eor (.mem (.izy l))
  | 0x2 => .kil 0x52
  | 0x3 => .sre (.izy l)
  | 0x4 => .nopUnofficial 0x54 (.mem (.zpx l))
  | 0x5 => .eor (.mem (.zpx l))
  | 0x6 => .lsr (.mem (.zpx l))
  | 0x7 => .sre (.zpx l)
  | 0x8 => .cli
  | 0x9 => .eor (.mem (.aby (word h l)))
  | 0xA => .nopUnofficial 0x5A .imp
  | 0xB => .sre (.aby (word h l))
  | 0xC => .nopUnofficial 0x5C (.mem (.abx (word h l)))
  | 0xD => .eor (.mem (.abx (word h l)))
  | 0xE => .lsr (.mem (.abx (word h l)))
  | _ => .sre (.abx (word h l))

/-- Row 6x of R104. `l` is byte 1 and `h` byte 2 (R102). -/
def decodeRow6 (col : Nat) (l h : Byte) : Instr :=
  match col with
  | 0x0 => .rts
  | 0x1 => .adc (.mem (.izx l))
  | 0x2 => .kil 0x62
  | 0x3 => .rra (.izx l)
  | 0x4 => .nopUnofficial 0x64 (.mem (.zp l))
  | 0x5 => .adc (.mem (.zp l))
  | 0x6 => .ror (.mem (.zp l))
  | 0x7 => .rra (.zp l)
  | 0x8 => .pla
  | 0x9 => .adc (.imm l)
  | 0xA => .ror .acc
  | 0xB => .arr
  | 0xC => .jmpInd (word h l)
  | 0xD => .adc (.mem (.abs (word h l)))
  | 0xE => .ror (.mem (.abs (word h l)))
  | _ => .rra (.abs (word h l))

/-- Row 7x of R104. `l` is byte 1 and `h` byte 2 (R102). -/
def decodeRow7 (col : Nat) (l h : Byte) : Instr :=
  match col with
  | 0x0 => .bvs l
  | 0x1 => .adc (.mem (.izy l))
  | 0x2 => .kil 0x72
  | 0x3 => .rra (.izy l)
  | 0x4 => .nopUnofficial 0x74 (.mem (.zpx l))
  | 0x5 => .adc (.mem (.zpx l))
  | 0x6 => .ror (.mem (.zpx l))
  | 0x7 => .rra (.zpx l)
  | 0x8 => .sei
  | 0x9 => .adc (.mem (.aby (word h l)))
  | 0xA => .nopUnofficial 0x7A .imp
  | 0xB => .rra (.aby (word h l))
  | 0xC => .nopUnofficial 0x7C (.mem (.abx (word h l)))
  | 0xD => .adc (.mem (.abx (word h l)))
  | 0xE => .ror (.mem (.abx (word h l)))
  | _ => .rra (.abx (word h l))

/-- Row 8x of R104. `l` is byte 1 and `h` byte 2 (R102). -/
def decodeRow8 (col : Nat) (l h : Byte) : Instr :=
  match col with
  | 0x0 => .nopUnofficial 0x80 (.imm l)
  | 0x1 => .sta (.izx l)
  | 0x2 => .nopUnofficial 0x82 (.imm l)
  | 0x3 => .sax (.izx l)
  | 0x4 => .sty (.zp l)
  | 0x5 => .sta (.zp l)
  | 0x6 => .stx (.zp l)
  | 0x7 => .sax (.zp l)
  | 0x8 => .dey
  | 0x9 => .nopUnofficial 0x89 (.imm l)
  | 0xA => .txa
  | 0xB => .xaa
  | 0xC => .sty (.abs (word h l))
  | 0xD => .sta (.abs (word h l))
  | 0xE => .stx (.abs (word h l))
  | _ => .sax (.abs (word h l))

/-- Row 9x of R104. `l` is byte 1 and `h` byte 2 (R102). -/
def decodeRow9 (col : Nat) (l h : Byte) : Instr :=
  match col with
  | 0x0 => .bcc l
  | 0x1 => .sta (.izy l)
  | 0x2 => .kil 0x92
  | 0x3 => .ahx 0x93
  | 0x4 => .sty (.zpx l)
  | 0x5 => .sta (.zpx l)
  | 0x6 => .stx (.zpy l)
  | 0x7 => .sax (.zpy l)
  | 0x8 => .tya
  | 0x9 => .sta (.aby (word h l))
  | 0xA => .txs
  | 0xB => .tas
  | 0xC => .shy
  | 0xD => .sta (.abx (word h l))
  | 0xE => .shx
  | _ => .ahx 0x9F

/-- Row Ax of R104. `l` is byte 1 and `h` byte 2 (R102). -/
def decodeRowA (col : Nat) (l h : Byte) : Instr :=
  match col with
  | 0x0 => .ldy (.imm l)
  | 0x1 => .lda (.mem (.izx l))
  | 0x2 => .ldx (.imm l)
  | 0x3 => .lax (.izx l)
  | 0x4 => .ldy (.mem (.zp l))
  | 0x5 => .lda (.mem (.zp l))
  | 0x6 => .ldx (.mem (.zp l))
  | 0x7 => .lax (.zp l)
  | 0x8 => .tay
  | 0x9 => .lda (.imm l)
  | 0xA => .tax
  | 0xB => .lxa
  | 0xC => .ldy (.mem (.abs (word h l)))
  | 0xD => .lda (.mem (.abs (word h l)))
  | 0xE => .ldx (.mem (.abs (word h l)))
  | _ => .lax (.abs (word h l))

/-- Row Bx of R104. `l` is byte 1 and `h` byte 2 (R102). -/
def decodeRowB (col : Nat) (l h : Byte) : Instr :=
  match col with
  | 0x0 => .bcs l
  | 0x1 => .lda (.mem (.izy l))
  | 0x2 => .kil 0xB2
  | 0x3 => .lax (.izy l)
  | 0x4 => .ldy (.mem (.zpx l))
  | 0x5 => .lda (.mem (.zpx l))
  | 0x6 => .ldx (.mem (.zpy l))
  | 0x7 => .lax (.zpy l)
  | 0x8 => .clv
  | 0x9 => .lda (.mem (.aby (word h l)))
  | 0xA => .tsx
  | 0xB => .las
  | 0xC => .ldy (.mem (.abx (word h l)))
  | 0xD => .lda (.mem (.abx (word h l)))
  | 0xE => .ldx (.mem (.aby (word h l)))
  | _ => .lax (.aby (word h l))

/-- Row Cx of R104. `l` is byte 1 and `h` byte 2 (R102). -/
def decodeRowC (col : Nat) (l h : Byte) : Instr :=
  match col with
  | 0x0 => .cpy (.imm l)
  | 0x1 => .cmp (.mem (.izx l))
  | 0x2 => .nopUnofficial 0xC2 (.imm l)
  | 0x3 => .dcp (.izx l)
  | 0x4 => .cpy (.mem (.zp l))
  | 0x5 => .cmp (.mem (.zp l))
  | 0x6 => .dec (.zp l)
  | 0x7 => .dcp (.zp l)
  | 0x8 => .iny
  | 0x9 => .cmp (.imm l)
  | 0xA => .dex
  | 0xB => .axs
  | 0xC => .cpy (.mem (.abs (word h l)))
  | 0xD => .cmp (.mem (.abs (word h l)))
  | 0xE => .dec (.abs (word h l))
  | _ => .dcp (.abs (word h l))

/-- Row Dx of R104. `l` is byte 1 and `h` byte 2 (R102). -/
def decodeRowD (col : Nat) (l h : Byte) : Instr :=
  match col with
  | 0x0 => .bne l
  | 0x1 => .cmp (.mem (.izy l))
  | 0x2 => .kil 0xD2
  | 0x3 => .dcp (.izy l)
  | 0x4 => .nopUnofficial 0xD4 (.mem (.zpx l))
  | 0x5 => .cmp (.mem (.zpx l))
  | 0x6 => .dec (.zpx l)
  | 0x7 => .dcp (.zpx l)
  | 0x8 => .cld
  | 0x9 => .cmp (.mem (.aby (word h l)))
  | 0xA => .nopUnofficial 0xDA .imp
  | 0xB => .dcp (.aby (word h l))
  | 0xC => .nopUnofficial 0xDC (.mem (.abx (word h l)))
  | 0xD => .cmp (.mem (.abx (word h l)))
  | 0xE => .dec (.abx (word h l))
  | _ => .dcp (.abx (word h l))

/-- Row Ex of R104. `l` is byte 1 and `h` byte 2 (R102). -/
def decodeRowE (col : Nat) (l h : Byte) : Instr :=
  match col with
  | 0x0 => .cpx (.imm l)
  | 0x1 => .sbc (.mem (.izx l))
  | 0x2 => .nopUnofficial 0xE2 (.imm l)
  | 0x3 => .isb (.izx l)
  | 0x4 => .cpx (.mem (.zp l))
  | 0x5 => .sbc (.mem (.zp l))
  | 0x6 => .inc (.zp l)
  | 0x7 => .isb (.zp l)
  | 0x8 => .inx
  | 0x9 => .sbc (.imm l)
  | 0xA => .nop
  | 0xB => .sbcAlias l
  | 0xC => .cpx (.mem (.abs (word h l)))
  | 0xD => .sbc (.mem (.abs (word h l)))
  | 0xE => .inc (.abs (word h l))
  | _ => .isb (.abs (word h l))

/-- Row Fx of R104. `l` is byte 1 and `h` byte 2 (R102). -/
def decodeRowF (col : Nat) (l h : Byte) : Instr :=
  match col with
  | 0x0 => .beq l
  | 0x1 => .sbc (.mem (.izy l))
  | 0x2 => .kil 0xF2
  | 0x3 => .isb (.izy l)
  | 0x4 => .nopUnofficial 0xF4 (.mem (.zpx l))
  | 0x5 => .sbc (.mem (.zpx l))
  | 0x6 => .inc (.zpx l)
  | 0x7 => .isb (.zpx l)
  | 0x8 => .sed
  | 0x9 => .sbc (.mem (.aby (word h l)))
  | 0xA => .nopUnofficial 0xFA .imp
  | 0xB => .isb (.aby (word h l))
  | 0xC => .nopUnofficial 0xFC (.mem (.abx (word h l)))
  | 0xD => .sbc (.mem (.abx (word h l)))
  | 0xE => .inc (.abx (word h l))
  | _ => .isb (.abx (word h l))

/-- The instruction of the opcode byte `op` with the bytes `l` and `h` after it (R103: every byte value has a row). A form
that takes fewer operand bytes does not look at the others. -/
def decodeOp (op l h : Byte) : Instr :=
  let col := op.toNat % 16
  match op.toNat / 16 with
  | 0x0 => decodeRow0 col l h
  | 0x1 => decodeRow1 col l h
  | 0x2 => decodeRow2 col l h
  | 0x3 => decodeRow3 col l h
  | 0x4 => decodeRow4 col l h
  | 0x5 => decodeRow5 col l h
  | 0x6 => decodeRow6 col l h
  | 0x7 => decodeRow7 col l h
  | 0x8 => decodeRow8 col l h
  | 0x9 => decodeRow9 col l h
  | 0xA => decodeRowA col l h
  | 0xB => decodeRowB col l h
  | 0xC => decodeRowC col l h
  | 0xD => decodeRowD col l h
  | 0xE => decodeRowE col l h
  | _ => decodeRowF col l h

/-- How many bytes the opcode byte asks to be fetched (R100: the opcode byte alone determines the length). -/
def opcodeLength (op : Byte) : Nat := (decodeOp op 0 0).length

/-- What decoding a list of bytes gives: an instruction and the bytes after it, or a rejection by name. -/
inductive Decoded where
  | ok (i : Instr) (rest : List Byte)
  /-- there is no byte at all -/
  | noOpcode
  /-- the list ends before the operand bytes of `op` -/
  | truncated (op : Byte)
  deriving DecidableEq, Repr

/-- Decoding, total on any bytes. -/
def decode : List Byte → Decoded
  | [] => .noOpcode
  | op :: rest =>
    match opcodeLength op, rest with
    | 1, rest => .ok (decodeOp op 0 0) rest
    | 2, l :: rest => .ok (decodeOp op l 0) rest
    | 3, l :: h :: rest => .ok (decodeOp op l h) rest
    | _, _ => .truncated op

/-- The first opcode the list gives for the mode. -/
def pickOpcode : List (Mode × Byte) → Mode → Option Byte
  | [], _ => none
  | (m, op) :: rest, mode => if m = mode then some op else pickOpcode rest mode

/-- `op`, if it stands in the list. -/
def oneOf (ops : List Byte) (op : Byte) : Option Byte := if ops.contains op then some op else none

/-- The opcode byte of a well-formed instruction, from the list by mnemonic under R104. -/
def Instr.opcode : Instr → Option Byte
  | .lda s => pickOpcode [(.izx, 0xA1), (.zp, 0xA5), (.imm, 0xA9), (.abs, 0xAD), (.izy, 0xB1), (.zpx, 0xB5), (.aby, 0xB9), (.abx, 0xBD)] s.mode
  | .ldx s => pickOpcode [(.imm, 0xA2), (.zp, 0xA6), (.abs, 0xAE), (.zpy, 0xB6), (.aby, 0xBE)] s.mode
  | .ldy s => pickOpcode [(.imm, 0xA0), (.zp, 0xA4), (.abs, 0xAC), (.zpx, 0xB4), (.abx, 0xBC)] s.mode
  | .sta m => pickOpcode [(.izx, 0x81), (.zp, 0x85), (.abs, 0x8D), (.izy, 0x91), (.zpx, 0x95), (.aby, 0x99), (.abx, 0x9D)] m.mode
  | .stx m => pickOpcode [(.zp, 0x86), (.abs, 0x8E), (.zpy, 0x96)] m.mode
  | .sty m => pickOpcode [(.zp, 0x84), (.abs, 0x8C), (.zpx, 0x94)] m.mode
  | .tax => some 0xAA
  | .tay => some 0xA8
  | .txa => some 0x8A
  | .tya => some 0x98
  | .tsx => some 0xBA
  | .txs => some 0x9A
  | .adc s => pickOpcode [(.izx, 0x61), (.zp, 0x65), (.imm, 0x69), (.abs, 0x6D), (.izy, 0x71), (.zpx, 0x75), (.aby, 0x79), (.abx, 0x7D)] s.mode
  | .sbc s => pickOpcode [(.izx, 0xE1), (.zp, 0xE5), (.imm, 0xE9), (.abs, 0xED), (.izy, 0xF1), (.zpx, 0xF5), (.aby, 0xF9), (.abx, 0xFD)] s.mode
  | .and s => pickOpcode [(.izx, 0x21), (.zp, 0x25), (.imm, 0x29), (.abs, 0x2D), (.izy, 0x31), (.zpx, 0x35), (.aby, 0x39), (.abx, 0x3D)] s.mode
  | .ora s => pickOpcode [(.izx, 0x01), (.zp, 0x05), (.imm, 0x09), (.abs, 0x0D), (.izy, 0x11), (.zpx, 0x15), (.aby, 0x19), (.abx, 0x1D)] s.mode
  | .eor s => pickOpcode [(.izx, 0x41), (.zp, 0x45), (.imm, 0x49), (.abs, 0x4D), (.izy, 0x51), (.zpx, 0x55), (.aby, 0x59), (.abx, 0x5D)] s.mode
  | .bit m => pickOpcode [(.zp, 0x24), (.abs, 0x2C)] m.mode
  | .cmp s => pickOpcode [(.izx, 0xC1), (.zp, 0xC5), (.imm, 0xC9), (.abs, 0xCD), (.izy, 0xD1), (.zpx, 0xD5), (.aby, 0xD9), (.abx, 0xDD)] s.mode
  | .cpx s => pickOpcode [(.imm, 0xE0), (.zp, 0xE4), (.abs, 0xEC)] s.mode
  | .cpy s => pickOpcode [(.imm, 0xC0), (.zp, 0xC4), (.abs, 0xCC)] s.mode
  | .inc m => pickOpcode [(.zp, 0xE6), (.abs, 0xEE), (.zpx, 0xF6), (.abx, 0xFE)] m.mode
  | .dec m => pickOpcode [(.zp, 0xC6), (.abs, 0xCE), (.zpx, 0xD6), (.abx, 0xDE)] m.mode
  | .inx => some 0xE8
  | .iny => some 0xC8
  | .dex => some 0xCA
  | .dey => some 0x88
  | .asl d => pickOpcode [(.zp, 0x06), (.acc, 0x0A), (.abs, 0x0E), (.zpx, 0x16), (.abx, 0x1E)] d.mode
  | .lsr d => pickOpcode [(.zp, 0x46), (.acc, 0x4A), (.abs, 0x4E), (.zpx, 0x56), (.abx, 0x5E)] d.mode
  | .rol d => pickOpcode [(.zp, 0x26), (.acc, 0x2A), (.abs, 0x2E), (.zpx, 0x36), (.abx, 0x3E)] d.mode
  | .ror d => pickOpcode [(.zp, 0x66), (.acc, 0x6A), (.abs, 0x6E), (.zpx, 0x76), (.abx, 0x7E)] d.mode
  | .pha => some 0x48
  | .php => some 0x08
  | .pla => some 0x68
  | .plp => some 0x28
  | .clc => some 0x18
  | .sec => some 0x38
  | .cli => some 0x58
  | .sei => some 0x78
  | .cld => some 0xD8
  | .sed => some 0xF8
  | .clv => some 0xB8
  | .nop => some 0xEA
  | .jmpAbs _ => some 0x4C
  | .jmpInd _ => some 0x6C
  | .jsr _ => some 0x20
  | .rts => some 0x60
  | .bpl _ => some 0x10
  | .bmi _ => some 0x30
  | .bvc _ => some 0x50
  | .bvs _ => some 0x70
  | .bcc _ => some 0x90
  | .bcs _ => some 0xB0
  | .bne _ => some 0xD0
  | .beq _ => some 0xF0
  | .brk => some 0x00
  | .rti => some 0x40
  | .lax m => pickOpcode [(.izx, 0xA3), (.zp, 0xA7), (.abs, 0xAF), (.izy, 0xB3), (.zpy, 0xB7), (.aby, 0xBF)] m.mode
  | .sax m => pickOpcode [(.izx, 0x83), (.zp, 0x87), (.abs, 0x8F), (.zpy, 0x97)] m.mode
  | .dcp m => pickOpcode [(.izx, 0xC3), (.zp, 0xC7), (.abs, 0xCF), (.izy, 0xD3), (.zpx, 0xD7), (.aby, 0xDB), (.abx, 0xDF)] m.mode
  | .isb m => pickOpcode [(.izx, 0xE3), (.zp, 0xE7), (.abs, 0xEF), (.izy, 0xF3), (.zpx, 0xF7), (.aby, 0xFB), (.abx, 0xFF)] m.mode
  | .slo m => pickOpcode [(.izx, 0x03), (.zp, 0x07), (.abs, 0x0F), (.izy, 0x13), (.zpx, 0x17), (.aby, 0x1B), (.abx, 0x1F)] m.mode
  | .rla m => pickOpcode [(.izx, 0x23), (.zp, 0x27), (.abs, 0x2F), (.izy, 0x33), (.zpx, 0x37), (.aby, 0x3B), (.abx, 0x3F)] m.mode
  | .sre m => pickOpcode [(.izx, 0x43), (.zp, 0x47), (.abs, 0x4F), (.izy, 0x53), (.zpx, 0x57), (.aby, 0x5B), (.abx, 0x5F)] m.mode
  | .rra m => pickOpcode [(.izx, 0x63), (.zp, 0x67), (.abs, 0x6F), (.izy, 0x73), (.zpx, 0x77), (.aby, 0x7B), (.abx, 0x7F)] m.mode
  | .nopUnofficial op arg => oneOf (nopOpcodes arg.mode) op
  | .sbcAlias _ => some 0xEB
  | .kil op => oneOf kilOpcodes op
  | .anc op => oneOf [0x0B, 0x2B] op
  | .alr => some 0x4B
  | .arr => some 0x6B
  | .xaa => some 0x8B
  | .lxa => some 0xAB
  | .axs => some 0xCB
  | .ahx op => oneOf [0x93, 0x9F] op
  | .shy => some 0x9C
  | .shx => some 0x9E
  | .tas => some 0x9B
  | .las => some 0xBB

/-- A 16-bit operand as the instruction stores it: low byte first (R102). -/
def addrBytes (w : Addr) : List Byte := [loByte w, hiByte w]

/-- The operand bytes of a memory operand (R102). -/
def Mem.bytes : Mem → List Byte
  | .zp z | .zpx z | .zpy z | .izx z | .izy z => [z]
  | .abs w | .abx w | .aby w => addrBytes w

/-- The operand bytes of an instruction (R102). -/
def Instr.operand : Instr → List Byte
  | .lda s | .ldx s | .ldy s | .adc s | .sbc s | .and s | .ora s | .eor s | .cmp s | .cpx s | .cpy s =>
      match s with
      | .imm v => [v]
      | .mem m => m.bytes
  | .sta m | .stx m | .sty m | .bit m | .inc m | .dec m => m.bytes
  | .lax m | .sax m | .dcp m | .isb m | .slo m | .rla m | .sre m | .rra m => m.bytes
  | .asl d | .lsr d | .rol d | .ror d =>
      match d with
      | .acc => []
      | .mem m => m.bytes
  | .nopUnofficial _ arg =>
      match arg with
      | .imp => []
      | .imm v => [v]
      | .mem m => m.bytes
  | .tax | .tay | .txa | .tya | .tsx | .txs | .inx | .iny | .dex | .dey => []
  | .pha | .php | .pla | .plp | .clc | .sec | .cli | .sei | .cld | .sed | .clv | .nop => []
  | .rts | .brk | .rti => []
  | .jmpAbs w | .jmpInd w | .jsr w => addrBytes w
  | .bpl d | .bmi d | .bvc d | .bvs d | .bcc d | .bcs d | .bne d | .beq d => [d]
  | .sbcAlias v => [v]
  | .kil _ | .anc _ | .alr | .arr | .xaa | .lxa | .axs | .ahx _ | .shy | .shx | .tas | .las => []

/-- The bytes of a well-formed instruction, the opcode byte first (R100); no bytes for an ill-formed one. -/
def encode (i : Instr) : List Byte :=
  match i.opcode with
  | some op => op :: i.operand
  | none => []

/-- Byte `k` of an instruction whose bits are numbered from bit 0 of its first byte on. -/
def tableByte (w k : Nat) : Byte := BitVec.ofNat 8 (w >>> (8 * k))

/-- The bytes of a word of spec/opcode_table.json, every bit from `nbits` on being 0, up to the longest instruction. -/
def tableBytes (nbits w : Nat) : List Byte :=
  let v := w % 2 ^ nbits
  [tableByte v 0, tableByte v 1, tableByte v 2]

/-- The instruction the decoder reads from a word of spec/opcode_table.json. -/
def decodeTableWord (nbits w : Nat) : Option Instr :=
  match decode (tableBytes nbits w) with
  | .ok i _ => some i
  | .noOpcode => none
  | .truncated _ => none

end Sys2Proof
end

