-- ==== Sys2Proof/Machine/Sequencer.lean ====
section
/-! DEFINITION. The parts of the system step (60_exceptions.md R350) around the instruction: the inputs that land between
steps, the DMA transfer, the fetch, the PPU's dots and the audio tick. Step.lean puts them in order. -/

namespace Sys2Proof.Machine

/-- The input events due now, in order (00_scope.md R5; R350: inputs change only between system steps). -/
def takeInputs (s : State) : State :=
  match s.inputs with
  | [] => s
  | now :: later => now.foldl applyInput (s.setInputs later)

/-- The start of a system step: no output yet, and the inputs that came since the last step. -/
def beginStep (s : State) : State := takeInputs (s.setOut Outputs.empty)

/-- Item (a) of R350: the pending transfer runs and costs 514 cycles (R341, R342). -/
def runDma (s : State) : State :=
  if s.dma.pending then (dmaTransfer s).chargeDma Config.dmaCycles else s

/-- Items 2 to 4 of the CPU step as far as the instruction's own bytes go (40_addressing_modes.md R130): the opcode byte,
then as many operand bytes as it asks for, each through the bus (20_memory.md R72, R75). -/
def fetchInstr (s : State) : Instr × State :=
  let op := fetch8 s
  match opcodeLength op.1 with
  | 2 =>
    let l := fetch8 op.2
    (decodeOp op.1 l.1 0, l.2)
  | 3 =>
    let l := fetch8 op.2
    let h := fetch8 l.2
    (decodeOp op.1 l.1 h.1, h.2)
  | _ => (decodeOp op.1 0 0, op.2)

/-- `audio_tick(c)` (R348, R350 item (d)). -/
def audioTick (s : State) : State := s.setOut { s.out with audioTick := s.stepCycles }

/-- Items (c) and (d) of R350: three dots for each cycle of this system step, then the audio tick. -/
def finishStep (s : State) : State := audioTick (ppuRun (Config.dotsPerCycle * s.stepCycles) s)

/-- Whether a byte stored at the address is what a fetch from it reads: RAM or program ROM (20_memory.md R61). -/
def holdsCode (a : Addr) : Bool := decide (a.toNat < 0x2000) || decide (0x8000 ≤ a.toNat)

/-- A byte of a program put in place from outside the machine: into RAM, or into the cartridge's program ROM. -/
def placeByte (s : State) (a : Addr) (v : Byte) : State :=
  if a.toNat < 0x2000 then s.setRam (s.ram.write (a.toNat % Config.ramSize) v)
  else { s with cart := { s.cart with prg := s.cart.prg.write (prgIndex s.cart.prgSize.bytes a) v } }

/-- Where `withFetchWord` puts the instruction: at PC, or at 0x0200 where PC is not in RAM or ROM. -/
def placeAt (pc : Addr) : Addr :=
  if holdsCode pc && holdsCode (addrPlus pc 1) && holdsCode (addrPlus pc 2) then pc else 0x0200#16

/-- No interrupt is waiting and no input lands before the next step, so that step fetches at PC itself. -/
def withoutInterrupt (s : State) : State :=
  let s' := (deassertNmi (deassertIrq s))
  match s.inputs with
  | [] => s'
  | l => s'.setInputs ([] :: l)

/-- The three bytes in place from `a` on. -/
def placeBytes (s : State) (a : Addr) (nbits w : Nat) : State :=
  let v := w % 2 ^ nbits
  placeByte (placeByte (placeByte s a (tableByte v 0)) (addrPlus a 1) (tableByte v 1)) (addrPlus a 2) (tableByte v 2)

end Sys2Proof.Machine
end

