-- ==== Sys2Proof/Machine/Step.lean ====
section
/-! DEFINITION. The CPU step (40_addressing_modes.md R130) and the system step (60_exceptions.md R350). -/

namespace Sys2Proof.Machine

/-- `CpuStep()` (R130): a waiting interrupt is entered, and in the same step one instruction is fetched and executed. -/
def cpuStep (s : State) : Host.Outcome State Fault Refusal :=
  let f := fetchInstr (serviceInterrupt s)
  exec f.1 f.2

/-- `SystemStep()` (R350): DMA if pending, one CPU step, the PPU, the audio tick. A fault ends the run before the PPU. -/
def step (s : State) : Host.Outcome State Fault Refusal :=
  match cpuStep (runDma (beginStep s)) with
  | .next t => .next (finishStep t)
  | .fault f => .fault f
  | .refused r => .refused r

/-- `s` with one instruction stored where the next step fetches (log entry 5). -/
def State.withFetchWord (s : State) (nbits w : Nat) : State :=
  let a := placeAt s.cpu.pc
  (placeBytes (withoutInterrupt s) a nbits w).setPc a

end Sys2Proof.Machine
end

