-- ==== Sys2Proof/Safety.lean ====
section
/-! DEFINITION. The terms claims are stated in: the invariant of the machine, an instruction's operand, address, stored
bytes and cost written out from the addressing-mode rules, and the flag bytes. None of them is part of the machine. -/

namespace Sys2Proof

/-- The cartridge is one the CORE accepts (00_scope.md R4; 93_implementation_defined.md U5, U6). -/
structure Cartridge.Ok (c : Cartridge) : Prop where
  prgWf     : c.prg.wf = true
  prgWithin : c.prg.within c.prgSize.bytes = true
  chrOk     : ∀ m, c.chr = some m → m.wf = true ∧ m.within Config.patternSize = true

/-- The initial images are images of their memories (10_state.md R27, R37). -/
structure MemInit.Ok (m : MemInit) : Prop where
  ramWf      : m.ram.wf = true
  patWf      : m.pat.wf = true
  vramWf     : m.vram.wf = true
  oamWf      : m.oam.wf = true
  palWf      : m.pal.wf = true
  ramWithin  : m.ram.within Config.ramSize = true
  patWithin  : m.pat.within Config.patternSize = true
  vramWithin : m.vram.within Config.vramSize = true
  oamWithin  : m.oam.within Config.oamSize = true
  palWithin  : m.pal.within Config.paletteSize = true

/-- The instruction is one of the reserved encodings (30_encoding.md R106). -/
def Instr.isReserved : Instr → Bool
  | .kil _ | .anc _ | .alr | .arr | .xaa | .lxa | .axs | .ahx _ | .shy | .shx | .tas | .las => true
  | _ => false

/-- The reserved opcode bytes, as R106 lists them. -/
def reservedOpcodes : List Byte :=
  [0x02, 0x12, 0x22, 0x32, 0x42, 0x52, 0x62, 0x72, 0x92, 0xB2, 0xD2, 0xF2, 0x0B, 0x2B, 0x4B, 0x6B, 0x8B, 0xAB, 0xCB,
   0x93, 0x9F, 0x9C, 0x9E, 0x9B, 0xBB]

namespace Machine

/-! ### The invariant -/

/-- Every memory of the PPU is canonical and within its size (10_state.md R27; 20_memory.md R65). -/
structure Ppu.MemoriesOk (p : Ppu) : Prop where
  patWf      : p.pat.wf = true
  vramWf     : p.vram.wf = true
  oamWf      : p.oam.wf = true
  palWf      : p.pal.wf = true
  patWithin  : p.pat.within Config.patternSize = true
  vramWithin : p.vram.within Config.vramSize = true
  oamWithin  : p.oam.within Config.oamSize = true
  palWithin  : p.pal.within Config.paletteSize = true

/-- What holds between any two system steps: canonical memories in range (R27, R65), P.R = 1 and P.B = 0 (R24, R25), the
counters at rest in 0..261 and 0..340 (R32, R310), 64 sprites (R33), and whole rows of 33 tiles, at most one for each eight
lines begun and at most 30 (R313). -/
structure State.Inv (s : State) : Prop where
  cart       : s.cart.Ok
  ramWf      : s.ram.wf = true
  ramWithin  : s.ram.within Config.ramSize = true
  ppu        : s.ppu.MemoriesOk
  reserved   : s.flag .r = true
  breakFlag  : s.flag .b = false
  line       : s.ppu.line < Config.linesPerFrame
  dot        : s.ppu.dot < Config.dotsPerLine
  sprites    : s.ppu.sprites.length = 64
  background : ∃ rows, rows ≤ s.ppu.line / 8 ∧ rows ≤ 30 ∧ s.ppu.background.length = 33 * rows

/-! ### Operands, written out from RAM (40_addressing_modes.md R132 to R142) -/

/-- The effective address of a memory operand. -/
def effAddr (m : Mem) (s : State) : Addr :=
  match m with
  | .zp z  => zext z
  | .zpx z => zext (z + s.cpu.x)
  | .zpy z => zext (z + s.cpu.y)
  | .abs w => w
  | .abx w => w + zext s.cpu.x
  | .aby w => w + zext s.cpu.y
  | .izx z => word (s.ram.read (z + s.cpu.x + 1#8).toNat) (s.ram.read (z + s.cpu.x).toNat)
  | .izy z => word (s.ram.read (z + 1#8).toNat) (s.ram.read z.toNat) + zext s.cpu.y

/-- The extra-cycle flag of a memory operand (R144): 1 exactly when indexing changes the page. -/
def effExtra (m : Mem) (s : State) : Nat :=
  match m with
  | .abx w => if hiByte (w + zext s.cpu.x) = hiByte w then 0 else 1
  | .aby w => if hiByte (w + zext s.cpu.y) = hiByte w then 0 else 1
  | .izy z =>
    let w := word (s.ram.read (z + 1#8).toNat) (s.ram.read z.toNat)
    if hiByte (w + zext s.cpu.y) = hiByte w then 0 else 1
  | .zp _ | .zpx _ | .zpy _ | .abs _ | .izx _ => 0

/-- The value of a read-class operand and the state after it is read (R131, R146). -/
def operandOf (src : Src) (s : State) : Byte × State :=
  match src with
  | .imm v => (v, s)
  | .mem m => busRead (effAddr m s) s

/-- The cycles of a read-class instruction (R145). -/
def srcCost (src : Src) (s : State) : Nat :=
  match src with
  | .imm _ => 2
  | .mem m => readBase m + effExtra m s

/-- `s` with the CPU registers `c`. -/
def State.withCpu (s : State) (c : Cpu) : State := { s with cpu := c }

/-! ### Flag bytes (10_state.md R23) -/

/-- `p` with the bits of `mask` taken from `new`, a byte with no other bit set. -/
def writeFlags (p mask new : Byte) : Byte := (p &&& ~~~mask) ||| new

/-- The Z bit that a result `v` gives. -/
def zBit (v : Byte) : Byte := if v = 0#8 then 0x02#8 else 0x00#8

/-- The N and Z bits that `SetZN(v)` gives (00_scope.md R7). -/
def nzBits (v : Byte) : Byte := (v &&& 0x80#8) ||| zBit v

/-- The C bit. -/
def cBit (c : Bool) : Byte := if c then 0x01#8 else 0x00#8

/-- The V bit. -/
def vBit (v : Bool) : Byte := if v then 0x40#8 else 0x00#8

/-- The carry of `p` as a number. -/
def carryOf (p : Byte) : Nat := p.toNat % 2

/-- The registers after `AddWithCarry(m)` from the registers `c` (42_arithmetic_logic.md R170). -/
def afterAdd (c : Cpu) (m : Byte) : Cpu :=
  let sum := c.a.toNat + m.toNat + carryOf c.p
  let r := BitVec.ofNat 8 sum
  let v := decide (bit c.a 7 = bit m 7 ∧ bit r 7 ≠ bit c.a 7)
  { c with a := r, p := writeFlags c.p 0xC3#8 (nzBits r ||| vBit v ||| cBit (decide (0xFF < sum))) }

/-- The registers after SBC of `m` from the registers `c`, from the difference A - M - (1 - C) (R171). -/
def afterSub (c : Cpu) (m : Byte) : Cpu :=
  let d : Int := (c.a.toNat : Int) - m.toNat - (1 - carryOf c.p)
  let r := BitVec.ofInt 8 d
  let v := decide (bit c.a 7 ≠ bit m 7 ∧ bit r 7 ≠ bit c.a 7)
  { c with a := r, p := writeFlags c.p 0xC3#8 (nzBits r ||| vBit v ||| cBit (decide (0 ≤ d))) }

/-- P after `Compare(r, m)` (R176). -/
def afterCompare (p r m : Byte) : Byte := writeFlags p 0x83#8 (nzBits (r - m) ||| cBit (decide (m.toNat ≤ r.toNat)))

/-! ### The next states of the access classes (40_addressing_modes.md R146) -/

/-- After a read-class instruction that leaves the registers `c m` for the operand's value `m`. -/
def afterRead (src : Src) (s : State) (c : Byte → Cpu) : State :=
  ((operandOf src s).2.withCpu (c (operandOf src s).1)).charge (srcCost src s)

/-- After a write-class instruction that stores `v`. -/
def afterStore (m : Mem) (s : State) (v : Byte) : State :=
  (busWrite (effAddr m s) v s).charge (writeBase m + effExtra m s)

/-- After a read-modify-write instruction that stores `new m` and leaves the registers `c m` for the byte `m` it read. -/
def afterRmw (mem : Mem) (s : State) (new : Byte → Byte) (c : Byte → Cpu) : State :=
  let b := busRead (effAddr mem s) s
  ((busWrite (effAddr mem s) (new b.1) b.2).withCpu (c b.1)).charge (rmwBase mem + effExtra mem s)

/-- After an instruction of `n` cycles that touches registers only. -/
def afterRegs (n : Nat) (s : State) (c : Cpu) : State := (s.withCpu c).charge n

/-- After an instruction of `n` cycles that leaves RAM `m` and the registers `c`. -/
def afterStack (n : Nat) (s : State) (m : Memory) (c : Cpu) : State := ((s.setRam m).withCpu c).charge n

/-- The index in RAM of the byte that a stack pointer names (20_memory.md R77). -/
def stackIndex (sp : Byte) : Nat := 0x100 + sp.toNat

/-! ### Where an instruction stores (20_memory.md R72 items 6 and 7) -/

/-- The addresses an instruction stores to, from the state in which it executes. -/
def storedAt (i : Instr) (s : State) : List Addr :=
  match i with
  | .sta m | .stx m | .sty m | .sax m | .inc m | .dec m => [effAddr m s]
  | .asl (.mem m) | .lsr (.mem m) | .rol (.mem m) | .ror (.mem m) => [effAddr m s]
  | .dcp m | .isb m | .slo m | .rla m | .sre m | .rra m => [effAddr m s]
  | .pha | .php => [stackAddr s.cpu.sp]
  | .jsr _ => [stackAddr s.cpu.sp, stackAddr (s.cpu.sp - 1#8)]
  | .brk => [stackAddr s.cpu.sp, stackAddr (s.cpu.sp - 1#8), stackAddr (s.cpu.sp - 2#8)]
  | .asl .acc | .lsr .acc | .rol .acc | .ror .acc => []
  | .lda _ | .ldx _ | .ldy _ | .adc _ | .sbc _ | .and _ | .ora _ | .eor _ | .cmp _ | .cpx _ | .cpy _ | .bit _ => []
  | .tax | .tay | .txa | .tya | .tsx | .txs | .inx | .iny | .dex | .dey => []
  | .pla | .plp | .clc | .sec | .cli | .sei | .cld | .sed | .clv | .nop => []
  | .jmpAbs _ | .jmpInd _ | .rts | .rti => []
  | .bpl _ | .bmi _ | .bvc _ | .bvs _ | .bcc _ | .bcs _ | .bne _ | .beq _ => []
  | .lax _ | .nopUnofficial _ _ | .sbcAlias _ => []
  | .kil _ | .anc _ | .alr | .arr | .xaa | .lxa | .axs | .ahx _ | .shy | .shx | .tas | .las => []

/-- The address is of RAM or of program ROM: its reads have no effect and return a stored byte (R61 rows 1, 2, 8, 9). -/
def IsMemory (a : Addr) : Prop := a.toNat < 0x2000 ∨ 0x8000 ≤ a.toNat

/-- Two addresses of the same byte of RAM (R61 rows 1 and 2). -/
def SameRamByte (a b : Addr) : Prop := a.toNat < 0x2000 ∧ b.toNat < 0x2000 ∧ a.toNat % 0x800 = b.toNat % 0x800

/-- A PPU register address. -/
def IsPpuAddr (a : Addr) : Prop := 0x2000 ≤ a.toNat ∧ a.toNat < 0x4000

/-! ### The cost of an instruction (40_addressing_modes.md R145) -/

/-- The base cycle table of 30_encoding.md R107, row by row as it is printed there. -/
def baseTable : List (List Nat) :=
  [[7, 6, 0, 8, 3, 3, 5, 5, 3, 2, 2, 0, 4, 4, 6, 6],
   [2, 5, 0, 8, 4, 4, 6, 6, 2, 4, 2, 7, 4, 4, 7, 7],
   [6, 6, 0, 8, 3, 3, 5, 5, 4, 2, 2, 0, 4, 4, 6, 6],
   [2, 5, 0, 8, 4, 4, 6, 6, 2, 4, 2, 7, 4, 4, 7, 7],
   [6, 6, 0, 8, 3, 3, 5, 5, 3, 2, 2, 0, 3, 4, 6, 6],
   [2, 5, 0, 8, 4, 4, 6, 6, 2, 4, 2, 7, 4, 4, 7, 7],
   [6, 6, 0, 8, 3, 3, 5, 5, 4, 2, 2, 0, 5, 4, 6, 6],
   [2, 5, 0, 8, 4, 4, 6, 6, 2, 4, 2, 7, 4, 4, 7, 7]] ++
  [[2, 6, 2, 6, 3, 3, 3, 3, 2, 2, 2, 0, 4, 4, 4, 4],
   [2, 6, 0, 0, 4, 4, 4, 4, 2, 5, 2, 0, 0, 5, 0, 0],
   [2, 6, 2, 6, 3, 3, 3, 3, 2, 2, 2, 0, 4, 4, 4, 4],
   [2, 5, 0, 5, 4, 4, 4, 4, 2, 4, 2, 0, 4, 4, 4, 4],
   [2, 6, 2, 8, 3, 3, 5, 5, 2, 2, 2, 0, 4, 4, 6, 6],
   [2, 5, 0, 8, 4, 4, 6, 6, 2, 4, 2, 7, 4, 4, 7, 7],
   [2, 6, 2, 8, 3, 3, 5, 5, 2, 2, 2, 2, 4, 4, 6, 6],
   [2, 5, 0, 8, 4, 4, 6, 6, 2, 4, 2, 7, 4, 4, 7, 7]]

/-- `base(op)` of R145. -/
def baseCycles (op : Byte) : Nat := (baseTable.getD (op.toNat / 16) []).getD (op.toNat % 16) 0

/-- The condition of a branch, from P (45_control_transfer.md R235 to R242); none for every other instruction. -/
def branchTaken (i : Instr) (p : Byte) : Option Bool :=
  match i with
  | .bpl _ => some (!bit p 7) | .bmi _ => some (bit p 7)
  | .bvc _ => some (!bit p 6) | .bvs _ => some (bit p 6)
  | .bcc _ => some (!bit p 0) | .bcs _ => some (bit p 0)
  | .bne _ => some (!bit p 1) | .beq _ => some (bit p 1)
  | _ => none

/-- 1 when the branch target is on another page than the PC after the operand (R135). -/
def branchExtra (d : Byte) (pc : Addr) : Nat := if hiByte (pc + d.signExtend 16) = hiByte pc then 0 else 1

/-- The extra-cycle flag of an instruction (R144). -/
def extraOf (i : Instr) (s : State) : Nat :=
  match i with
  | .lda (.mem m) | .ldx (.mem m) | .ldy (.mem m) | .adc (.mem m) | .sbc (.mem m) | .and (.mem m) | .ora (.mem m)
  | .eor (.mem m) | .cmp (.mem m) | .cpx (.mem m) | .cpy (.mem m) => effExtra m s
  | .sta m | .stx m | .sty m | .bit m | .inc m | .dec m | .lax m | .sax m => effExtra m s
  | .dcp m | .isb m | .slo m | .rla m | .sre m | .rra m => effExtra m s
  | .asl (.mem m) | .lsr (.mem m) | .rol (.mem m) | .ror (.mem m) => effExtra m s
  | .nopUnofficial _ (.mem m) => effExtra m s
  | .bpl d | .bmi d | .bvc d | .bvs d | .bcc d | .bcs d | .bne d | .beq d => branchExtra d s.cpu.pc
  | _ => 0

/-! ### Runs of bus accesses and of dots -/

/-- The state after `n` reads of the address `a`. -/
def afterReads : Nat → Addr → State → State
  | 0, _, s => s
  | n + 1, a, s => (busRead a (afterReads n a s)).2

/-- The PPU advanced by each count of dots in turn. -/
def ppuRuns (chunks : List Nat) (s : State) : State := chunks.foldl (fun t n => ppuRun n t) s

/-- The dots the PPU has gone through in its frame. -/
def Ppu.frameDots (p : Ppu) : Nat := p.line * Config.dotsPerLine + p.dot

end Machine

end Sys2Proof
end

