-- ==== Sys2Proof/Certificates/Slice0/Obligations.lean ====
section
/-! DEFINITION. The statements for the provers. Each docstring names the rules of the spec the statement formalises, and
says where a clause is a decision of the spec (D) or the 6502's general knowledge rather than the document's own words. -/

open Sys2Proof Sys2Proof.Machine

/-! ### Encoding -/

/-- Decoding an encoded well-formed instruction gives it back, every operand at every value, with any bytes after it
(30_encoding.md R100 to R106; the opcode bytes are decisions D6, D8 and D9). -/
def Obligations.DecodeAfterEncode : Prop :=
  ∀ (i : Instr) (rest : List Byte), i.wellFormed = true → decode (encode i ++ rest) = .ok i rest

/-- Whatever decodes is well-formed and encodes to the bytes it was read from (30_encoding.md R100 to R106). -/
def Obligations.EncodeAfterDecode : Prop :=
  ∀ (bytes rest : List Byte) (i : Instr), decode bytes = .ok i rest → i.wellFormed = true ∧ encode i ++ rest = bytes

/-- Decoding is total on the byte values: any three bytes decode, and to a reserved instruction exactly when the first is
one of the 25 reserved bytes (30_encoding.md R103, R106). -/
def Obligations.DecodingIsTotal : Prop :=
  ∀ (op l h : Byte) (rest : List Byte), ∃ i r, decode (op :: l :: h :: rest) = .ok i r ∧
    r = (l :: h :: rest).drop (i.length - 1) ∧ (i.isReserved = true ↔ op ∈ reservedOpcodes)

/-- A word of each family, its bits as 30_encoding.md R102 and R104 give them, decodes to its instruction. -/
def Obligations.WrittenWordsDecode : Prop :=
  decode [0b10101001, 0b10000000] = .ok (.lda (.imm 0x80)) [] ∧
  decode [0b10110110, 0b11110000] = .ok (.ldx (.mem (.zpy 0xF0))) [] ∧
  decode [0b10001101, 0b00000000, 0b00000010] = .ok (.sta (.abs 0x0200)) [] ∧
  decode [0b01110001, 0b10000110] = .ok (.adc (.mem (.izy 0x86))) [] ∧
  decode [0b11011110, 0b00000001, 0b00000010] = .ok (.dec (.abx 0x0201)) [] ∧
  decode [0b01101010] = .ok (.ror .acc) [] ∧
  decode [0b00101000] = .ok .plp [] ∧
  decode [0b01101100, 0b11111111, 0b00000010] = .ok (.jmpInd 0x02FF) [] ∧
  decode [0b11010000, 0b11111011] = .ok (.bne 0xFB) [] ∧
  decode [0b11011011, 0b11111111, 0b00000010] = .ok (.dcp (.aby 0x02FF)) [] ∧
  decode [0b00000010, 0b11111111] = .ok (.kil 0x02) [0b11111111]

/-! ### The step -/

/-- The step runs the instruction decoded at PC: after the inputs, the pending DMA transfer and a waiting interrupt, where
the instruction's bytes are in RAM or ROM, exec runs with PC past them, then the PPU runs three dots for each cycle of the
transfer and of the CPU step, and the audio tick counts the same cycles; a fault ends the step there
(40_addressing_modes.md R130, 60_exceptions.md R350; the step as unit of scheduling is decision D35; the fields that hold the
outputs are the model's choice, log entry 4). -/
def Obligations.StepRunsDecodedInstruction : Prop :=
  ∀ (s : State) (i : Instr) (rest : List Byte),
    let u := serviceInterrupt (runDma (beginStep s))
    let pc := u.cpu.pc
    let v := u.withCpu { u.cpu with pc := addrPlus pc i.length }
    (∀ k, k < i.length → IsMemory (addrPlus pc k)) →
    decode [u.peek pc, u.peek (addrPlus pc 1), u.peek (addrPlus pc 2)] = .ok i rest →
    i.wellFormed = true ∧
    step s = match exec i v with
      | .next t =>
        let c := t.out.dmaCycles + t.out.cycles
        .next ((ppuRun (3 * c) t).setOut { (ppuRun (3 * c) t).out with audioTick := c })
      | .fault f => .fault f
      | .refused r => .refused r

/-- An instruction is fetched through the bus from whatever PC names, byte after byte in address order, each read with its
device's effect, PC advanced past each byte (20_memory.md R72 items 2 and 3, R75; 40_addressing_modes.md R130). -/
def Obligations.FetchGoesThroughTheBus : Prop :=
  ∀ s : State,
    let pc := s.cpu.pc
    let op := busRead pc s
    let l := busRead (pc + 1#16) op.2
    let h := busRead (pc + 2#16) l.2
    (opcodeLength op.1 = 1 → fetchInstr s = (decodeOp op.1 0 0, op.2.withCpu { s.cpu with pc := pc + 1#16 })) ∧
    (opcodeLength op.1 = 2 → fetchInstr s = (decodeOp op.1 l.1 0, l.2.withCpu { s.cpu with pc := pc + 2#16 })) ∧
    (opcodeLength op.1 = 3 → fetchInstr s = (decodeOp op.1 l.1 h.1, h.2.withCpu { s.cpu with pc := pc + 3#16 })) ∧
    (opcodeLength op.1 = 1 ∨ opcodeLength op.1 = 2 ∨ opcodeLength op.1 = 3)

/-- The machine stops exactly when the opcode byte it fetches is reserved; every other step has a next state. The state it
stops in has PC one past that byte and keeps what came before in the same system step: the inputs, the pending DMA transfer,
the interrupt entry (item 1 of the CPU step) and the read effect of the opcode fetch; the instruction and the PPU's dots have
not run (46_unofficial.md R270; 60_exceptions.md R304, R306; decision D9). That the state keeps the inputs and the transfer
too, where U1 of 93_implementation_defined.md says "as before the step", is the model's inference (log entry 8). -/
def Obligations.StepStopsExactlyOnReserved : Prop :=
  ∀ s : State,
    let u := serviceInterrupt (runDma (beginStep s))
    let op := busRead u.cpu.pc u
    (op.1 ∈ reservedOpcodes →
      step s = .fault (.illegalOpcode op.1 (op.2.withCpu { u.cpu with pc := u.cpu.pc + 1#16 }))) ∧
    (op.1 ∉ reservedOpcodes → ∃ t, step s = .next t)

/-- Each reserved instruction stops with IllegalOpcode and the state unchanged (46_unofficial.md R270; decision D9; its
opcode bytes are those of 30_encoding.md R106). -/
def Obligations.ReservedInstructionsStop : Prop :=
  ∀ (s : State) (op : Byte),
    exec (.kil op) s = .fault (.illegalOpcode op s) ∧ exec (.anc op) s = .fault (.illegalOpcode op s) ∧
    exec (.ahx op) s = .fault (.illegalOpcode op s) ∧ exec .alr s = .fault (.illegalOpcode 0x4B s) ∧
    exec .arr s = .fault (.illegalOpcode 0x6B s) ∧ exec .xaa s = .fault (.illegalOpcode 0x8B s) ∧
    exec .lxa s = .fault (.illegalOpcode 0xAB s) ∧ exec .axs s = .fault (.illegalOpcode 0xCB s) ∧
    exec .shy s = .fault (.illegalOpcode 0x9C s) ∧ exec .shx s = .fault (.illegalOpcode 0x9E s) ∧
    exec .tas s = .fault (.illegalOpcode 0x9B s) ∧ exec .las s = .fault (.illegalOpcode 0xBB s)

/-! ### Loads, stores, transfers -/

/-- LDA, LDX, LDY and LAX complete with the operand's value in their registers and in N and Z, and nothing else changed
but what the operand's one read does (41_load_store_transfer.md R150 to R152, 46_unofficial.md R260; decision D39). -/
def Obligations.LoadsWriteRegisterAndZN : Prop :=
  ∀ s : State,
    (∀ src, exec (.lda src) s = .next (afterRead src s fun m =>
      { s.cpu with a := m, p := writeFlags s.cpu.p 0x82#8 (nzBits m) })) ∧
    (∀ src, exec (.ldx src) s = .next (afterRead src s fun m =>
      { s.cpu with x := m, p := writeFlags s.cpu.p 0x82#8 (nzBits m) })) ∧
    (∀ src, exec (.ldy src) s = .next (afterRead src s fun m =>
      { s.cpu with y := m, p := writeFlags s.cpu.p 0x82#8 (nzBits m) })) ∧
    (∀ mem, exec (.lax mem) s = .next (afterRead (.mem mem) s fun m =>
      { s.cpu with a := m, x := m, p := writeFlags s.cpu.p 0x82#8 (nzBits m) }))

/-- STA, STX, STY and SAX complete with one write at the effective address, no read there and no register or flag changed
(41_load_store_transfer.md R153 to R155, 46_unofficial.md R261; decisions D16, D39). -/
def Obligations.StoresWriteOnce : Prop :=
  ∀ (m : Mem) (s : State),
    exec (.sta m) s = .next (afterStore m s s.cpu.a) ∧ exec (.stx m) s = .next (afterStore m s s.cpu.x) ∧
    exec (.sty m) s = .next (afterStore m s s.cpu.y) ∧ exec (.sax m) s = .next (afterStore m s (s.cpu.a &&& s.cpu.x))

/-- The transfers complete: each moves one register and sets N and Z from it, but TXS, which writes no flag
(41_load_store_transfer.md R156 to R161; decision D39). -/
def Obligations.TransfersMoveOneRegister : Prop :=
  ∀ s : State,
    exec .tax s = .next (afterRegs 2 s { s.cpu with x := s.cpu.a, p := writeFlags s.cpu.p 0x82#8 (nzBits s.cpu.a) }) ∧
    exec .tay s = .next (afterRegs 2 s { s.cpu with y := s.cpu.a, p := writeFlags s.cpu.p 0x82#8 (nzBits s.cpu.a) }) ∧
    exec .txa s = .next (afterRegs 2 s { s.cpu with a := s.cpu.x, p := writeFlags s.cpu.p 0x82#8 (nzBits s.cpu.x) }) ∧
    exec .tya s = .next (afterRegs 2 s { s.cpu with a := s.cpu.y, p := writeFlags s.cpu.p 0x82#8 (nzBits s.cpu.y) }) ∧
    exec .tsx s = .next (afterRegs 2 s { s.cpu with x := s.cpu.sp, p := writeFlags s.cpu.p 0x82#8 (nzBits s.cpu.sp) }) ∧
    exec .txs s = .next (afterRegs 2 s { s.cpu with sp := s.cpu.x })

/-! ### Arithmetic and logic -/

/-- ADC completes: the 8-bit sum A + M + C in A, N and Z from it, C the unsigned carry, V the sign rule of R170, and no
other flag or register changed. -/
def Obligations.AdcAddsWithCarry : Prop :=
  ∀ (src : Src) (s : State), exec (.adc src) s = .next (afterRead src s (afterAdd s.cpu))

/-- SBC and its alias 0xEB complete: the 8-bit difference A - M - (1 - C) in A, C set exactly when it is not negative, V the
sign rule of R171, N and Z from the result (42_arithmetic_logic.md R171, 46_unofficial.md R269; the alias is decision D8).
-/
def Obligations.SbcSubtractsWithBorrow : Prop :=
  ∀ s : State, (∀ src, exec (.sbc src) s = .next (afterRead src s (afterSub s.cpu))) ∧
    (∀ v, exec (.sbcAlias v) s = .next (afterRead (.imm v) s (afterSub s.cpu)))

/-- V reports signed overflow and C unsigned overflow or no borrow: after ADC and SBC, V is set exactly when the exact
signed result is outside -128..127 (42_arithmetic_logic.md R185). -/
def Obligations.OverflowIsSignedOverflow : Prop :=
  ∀ (src : Src) (s : State),
    let m := (operandOf src s).1
    let c : Int := carryOf s.cpu.p
    (∀ t, exec (.adc src) s = .next t →
      let r := s.cpu.a.toInt + m.toInt + c
      (t.flag .v = true ↔ r < -128 ∨ 127 < r) ∧ (t.flag .c = true ↔ 255 < (s.cpu.a.toNat : Int) + m.toNat + c)) ∧
    (∀ t, exec (.sbc src) s = .next t →
      let r := s.cpu.a.toInt - m.toInt - (1 - c)
      (t.flag .v = true ↔ r < -128 ∨ 127 < r) ∧
      (t.flag .c = true ↔ 0 ≤ (s.cpu.a.toNat : Int) - m.toNat - (1 - c)))

/-- The decimal flag has no effect on ADC, SBC, 0xEB, ISB and RRA: with D changed they do the same and D stays as it was
changed (42_arithmetic_logic.md R186; decision D10). -/
def Obligations.DecimalFlagHasNoEffect : Prop :=
  ∀ (i : Instr) (d : Bool) (s t : State),
    ((∃ src, i = .adc src ∨ i = .sbc src) ∨ (∃ v, i = .sbcAlias v) ∨ (∃ m, i = .isb m ∨ i = .rra m)) →
    exec i s = .next t → exec i (s.setFlag .d d) = .next (t.setFlag .d d)

/-- AND, ORA and EOR complete with the result in A and in N and Z (42_arithmetic_logic.md R172 to R174; decision D39). -/
def Obligations.LogicalOperations : Prop :=
  ∀ (src : Src) (s : State),
    exec (.and src) s = .next (afterRead src s fun m =>
      { s.cpu with a := s.cpu.a &&& m, p := writeFlags s.cpu.p 0x82#8 (nzBits (s.cpu.a &&& m)) }) ∧
    exec (.ora src) s = .next (afterRead src s fun m =>
      { s.cpu with a := s.cpu.a ||| m, p := writeFlags s.cpu.p 0x82#8 (nzBits (s.cpu.a ||| m)) }) ∧
    exec (.eor src) s = .next (afterRead src s fun m =>
      { s.cpu with a := s.cpu.a ^^^ m, p := writeFlags s.cpu.p 0x82#8 (nzBits (s.cpu.a ^^^ m)) })

/-- BIT completes: N and V are bits 7 and 6 of the operand, Z tells whether A and the operand share no bit, A stays
(42_arithmetic_logic.md R175; N and V from the operand is general knowledge, decision D39). -/
def Obligations.BitTestsTheOperand : Prop :=
  ∀ (mem : Mem) (s : State), exec (.bit mem) s = .next (afterRead (.mem mem) s fun m =>
    { s.cpu with p := writeFlags s.cpu.p 0xC2#8 ((m &&& 0xC0#8) ||| zBit (s.cpu.a &&& m)) })

/-- CMP, CPX and CPY complete: C set exactly when the register is at least the operand, N and Z from the truncated
difference, no register changed (42_arithmetic_logic.md R176 to R178; the carry is decision D39). -/
def Obligations.ComparesSetCarryAndZN : Prop :=
  ∀ (src : Src) (s : State),
    exec (.cmp src) s = .next (afterRead src s fun m => { s.cpu with p := afterCompare s.cpu.p s.cpu.a m }) ∧
    exec (.cpx src) s = .next (afterRead src s fun m => { s.cpu with p := afterCompare s.cpu.p s.cpu.x m }) ∧
    exec (.cpy src) s = .next (afterRead src s fun m => { s.cpu with p := afterCompare s.cpu.p s.cpu.y m })

/-- INC and DEC complete: one read, one write of the wrapped result, N and Z from it, C and V kept
(42_arithmetic_logic.md R179, R180; one read and one write is decision D16). -/
def Obligations.MemoryIncrements : Prop :=
  ∀ (mem : Mem) (s : State),
    exec (.inc mem) s = .next (afterRmw mem s (fun m => m + 1#8) fun m =>
      { s.cpu with p := writeFlags s.cpu.p 0x82#8 (nzBits (m + 1#8)) }) ∧
    exec (.dec mem) s = .next (afterRmw mem s (fun m => m - 1#8) fun m =>
      { s.cpu with p := writeFlags s.cpu.p 0x82#8 (nzBits (m - 1#8)) })

/-- INX, INY, DEX and DEY complete: the register wraps modulo 256, N and Z from it (42_arithmetic_logic.md R181 to R184;
decision D39). -/
def Obligations.RegisterIncrements : Prop :=
  ∀ s : State,
    exec .inx s = .next (afterRegs 2 s
      { s.cpu with x := s.cpu.x + 1#8, p := writeFlags s.cpu.p 0x82#8 (nzBits (s.cpu.x + 1#8)) }) ∧
    exec .iny s = .next (afterRegs 2 s
      { s.cpu with y := s.cpu.y + 1#8, p := writeFlags s.cpu.p 0x82#8 (nzBits (s.cpu.y + 1#8)) }) ∧
    exec .dex s = .next (afterRegs 2 s
      { s.cpu with x := s.cpu.x - 1#8, p := writeFlags s.cpu.p 0x82#8 (nzBits (s.cpu.x - 1#8)) }) ∧
    exec .dey s = .next (afterRegs 2 s
      { s.cpu with y := s.cpu.y - 1#8, p := writeFlags s.cpu.p 0x82#8 (nzBits (s.cpu.y - 1#8)) })

/-! ### Shifts and rotates -/

/-- The accumulator forms complete in two cycles, the result as a number: ASL doubles, LSR halves, ROL and ROR turn nine
bits with the old carry; C is the bit shifted out, N is 0 after LSR (43_shift_rotate.md R200 to R203; decision D39). -/
def Obligations.AccumulatorShifts : Prop :=
  ∀ s : State,
    let a := s.cpu.a
    let c := carryOf s.cpu.p
    let asl := BitVec.ofNat 8 (2 * a.toNat)
    let lsr := BitVec.ofNat 8 (a.toNat / 2)
    let rol := BitVec.ofNat 8 (2 * a.toNat + c)
    let ror := BitVec.ofNat 8 (a.toNat / 2 + 128 * c)
    exec (.asl .acc) s = .next (afterRegs 2 s
      { s.cpu with a := asl, p := writeFlags s.cpu.p 0x83#8 (nzBits asl ||| cBit (decide (0x80 ≤ a.toNat))) }) ∧
    exec (.lsr .acc) s = .next (afterRegs 2 s
      { s.cpu with a := lsr, p := writeFlags s.cpu.p 0x83#8 (zBit lsr ||| cBit (decide (a.toNat % 2 = 1))) }) ∧
    exec (.rol .acc) s = .next (afterRegs 2 s
      { s.cpu with a := rol, p := writeFlags s.cpu.p 0x83#8 (nzBits rol ||| cBit (decide (0x80 ≤ a.toNat))) }) ∧
    exec (.ror .acc) s = .next (afterRegs 2 s
      { s.cpu with a := ror, p := writeFlags s.cpu.p 0x83#8 (nzBits ror ||| cBit (decide (a.toNat % 2 = 1))) })

/-- The memory forms complete: the same results and flags, one read and one write at the effective address, A kept
(43_shift_rotate.md R200 to R203; decisions D16, D39). -/
def Obligations.MemoryShifts : Prop :=
  ∀ (mem : Mem) (s : State),
    let c := carryOf s.cpu.p
    let asl := fun m : Byte => BitVec.ofNat 8 (2 * m.toNat)
    let lsr := fun m : Byte => BitVec.ofNat 8 (m.toNat / 2)
    let rol := fun m : Byte => BitVec.ofNat 8 (2 * m.toNat + c)
    let ror := fun m : Byte => BitVec.ofNat 8 (m.toNat / 2 + 128 * c)
    exec (.asl (.mem mem)) s = .next (afterRmw mem s asl fun m =>
      { s.cpu with p := writeFlags s.cpu.p 0x83#8 (nzBits (asl m) ||| cBit (decide (0x80 ≤ m.toNat))) }) ∧
    exec (.lsr (.mem mem)) s = .next (afterRmw mem s lsr fun m =>
      { s.cpu with p := writeFlags s.cpu.p 0x83#8 (zBit (lsr m) ||| cBit (decide (m.toNat % 2 = 1))) }) ∧
    exec (.rol (.mem mem)) s = .next (afterRmw mem s rol fun m =>
      { s.cpu with p := writeFlags s.cpu.p 0x83#8 (nzBits (rol m) ||| cBit (decide (0x80 ≤ m.toNat))) }) ∧
    exec (.ror (.mem mem)) s = .next (afterRmw mem s ror fun m =>
      { s.cpu with p := writeFlags s.cpu.p 0x83#8 (nzBits (ror m) ||| cBit (decide (m.toNat % 2 = 1))) })

/-! ### The stack and the flags -/

/-- PHA and PHP complete: one byte at 0x0100 + SP, SP one less modulo 256; PHP pushes P with bits 4 and 5 set and leaves P
(44_stack_flags.md R210, R211; decisions D3, D11, D39). -/
def Obligations.PushesStoreOneByte : Prop :=
  ∀ s : State,
    exec .pha s = .next (afterStack 3 s (s.ram.write (stackIndex s.cpu.sp) s.cpu.a)
      { s.cpu with sp := s.cpu.sp - 1#8 }) ∧
    exec .php s = .next (afterStack 3 s (s.ram.write (stackIndex s.cpu.sp) (s.cpu.p ||| 0x30#8))
      { s.cpu with sp := s.cpu.sp - 1#8 })

/-- PLA and PLP complete: SP one more modulo 256, the byte there in A with N and Z, or in P with bit 5 forced to 1 and bit 4
to 0 (44_stack_flags.md R212, R213; decisions D3, D11, D39). -/
def Obligations.PullsLoadOneByte : Prop :=
  ∀ s : State,
    let sp := s.cpu.sp + 1#8
    let b := s.ram.read (stackIndex sp)
    exec .pla s = .next (afterRegs 4 s { s.cpu with sp := sp, a := b, p := writeFlags s.cpu.p 0x82#8 (nzBits b) }) ∧
    exec .plp s = .next (afterRegs 4 s { s.cpu with sp := sp, p := (b &&& 0xCF#8) ||| 0x20#8 })

/-- The flag instructions complete: each writes exactly one bit of P (44_stack_flags.md R214 to R220; decision D39). -/
def Obligations.FlagInstructionsWriteOneFlag : Prop :=
  ∀ s : State,
    exec .clc s = .next (afterRegs 2 s { s.cpu with p := s.cpu.p &&& 0xFE#8 }) ∧
    exec .sec s = .next (afterRegs 2 s { s.cpu with p := s.cpu.p ||| 0x01#8 }) ∧
    exec .cli s = .next (afterRegs 2 s { s.cpu with p := s.cpu.p &&& 0xFB#8 }) ∧
    exec .sei s = .next (afterRegs 2 s { s.cpu with p := s.cpu.p ||| 0x04#8 }) ∧
    exec .cld s = .next (afterRegs 2 s { s.cpu with p := s.cpu.p &&& 0xF7#8 }) ∧
    exec .sed s = .next (afterRegs 2 s { s.cpu with p := s.cpu.p ||| 0x08#8 }) ∧
    exec .clv s = .next (afterRegs 2 s { s.cpu with p := s.cpu.p &&& 0xBF#8 })

/-- NOP and the unofficial no-operations complete with no effect but their cycles: nothing is read at the effective address
(44_stack_flags.md R221, 46_unofficial.md R268; decisions D8, D16). -/
def Obligations.NoOperationsDoNothing : Prop :=
  ∀ (op : Byte) (s : State),
    exec .nop s = .next (s.charge 2) ∧ exec (.nopUnofficial op .imp) s = .next (s.charge 2) ∧
    (∀ v, exec (.nopUnofficial op (.imm v)) s = .next (s.charge 2)) ∧
    (∀ m, exec (.nopUnofficial op (.mem m)) s = .next (s.charge (readBase m + effExtra m s)))

/-! ### Control transfer -/

/-- JMP completes: absolute to its operand; indirect to the word read through the pointer, its high byte from the same page
(45_control_transfer.md R230, R231, 40_addressing_modes.md R143; decisions D15, D39). -/
def Obligations.JumpsLoadPc : Prop :=
  ∀ (w : Addr) (s : State),
    let l := busRead w s
    let h := busRead (word (hiByte w) (loByte w + 1#8)) l.2
    exec (.jmpAbs w) s = .next (afterRegs 3 s { s.cpu with pc := w }) ∧
    exec (.jmpInd w) s = .next (afterRegs 5 h.2 { s.cpu with pc := word h.1 l.1 })

/-- JSR completes with the address of its last byte pushed, high byte first, and PC at its operand; RTS completes with PC
one past the pulled word (45_control_transfer.md R232, R233; decisions D3, D17). -/
def Obligations.CallAndReturn : Prop :=
  ∀ (w : Addr) (s : State),
    let sp := s.cpu.sp
    let ret := s.cpu.pc - 1#16
    let lo := s.ram.read (stackIndex (sp + 1#8))
    let hi := s.ram.read (stackIndex (sp + 2#8))
    exec (.jsr w) s = .next (afterStack 6 s
      ((s.ram.write (stackIndex sp) (hiByte ret)).write (stackIndex (sp - 1#8)) (loByte ret))
      { s.cpu with sp := sp - 2#8, pc := w }) ∧
    exec .rts s = .next (afterRegs 6 s { s.cpu with sp := sp + 2#8, pc := word hi lo + 1#16 })

/-- The eight branches complete: the target is PC after the operand plus the signed displacement; taken or not, the cost
has the page-change cycle, and one more when taken (45_control_transfer.md R234 to R242; decisions D13, D14, D39). -/
def Obligations.BranchesFollowTheirFlag : Prop :=
  ∀ (d : Byte) (s : State),
    let go := fun taken : Bool => afterRegs (2 + branchExtra d s.cpu.pc + taken.toNat) s
      { s.cpu with pc := if taken then s.cpu.pc + d.signExtend 16 else s.cpu.pc }
    exec (.bpl d) s = .next (go (!bit s.cpu.p 7)) ∧ exec (.bmi d) s = .next (go (bit s.cpu.p 7)) ∧
    exec (.bvc d) s = .next (go (!bit s.cpu.p 6)) ∧ exec (.bvs d) s = .next (go (bit s.cpu.p 6)) ∧
    exec (.bcc d) s = .next (go (!bit s.cpu.p 0)) ∧ exec (.bcs d) s = .next (go (bit s.cpu.p 0)) ∧
    exec (.bne d) s = .next (go (!bit s.cpu.p 1)) ∧ exec (.beq d) s = .next (go (bit s.cpu.p 1))

/-- BRK completes by entering the handler at 0xFFFE with the address two past its opcode and P with bits 4 and 5 set on the
stack, I set and B not; RTI completes with P (bit 5 forced to 1, bit 4 to 0), then PC, pulled
(45_control_transfer.md R243, R244; decisions D11, D17). -/
def Obligations.BreakAndReturnFromInterrupt : Prop :=
  ∀ s : State,
    let sp := s.cpu.sp
    let ret := s.cpu.pc + 1#16
    let b := s.ram.read (stackIndex (sp + 1#8))
    let lo := s.ram.read (stackIndex (sp + 2#8))
    let hi := s.ram.read (stackIndex (sp + 3#8))
    exec .brk s = .next (afterStack 7 s
      (((s.ram.write (stackIndex sp) (hiByte ret)).write (stackIndex (sp - 1#8)) (loByte ret)).write
        (stackIndex (sp - 2#8)) (s.cpu.p ||| 0x30#8))
      { s.cpu with sp := sp - 3#8, p := s.cpu.p ||| 0x04#8,
                   pc := word (prgByte s.cart 0xFFFF#16) (prgByte s.cart 0xFFFE#16) }) ∧
    exec .rti s = .next (afterRegs 6 s
      { s.cpu with sp := sp + 3#8, p := (b &&& 0xCF#8) ||| 0x20#8, pc := word hi lo })

/-- Returns undo calls and entries: after JSR then RTS the registers are as before the JSR executed; after BRK then RTI, and
after an NMI entry then RTI, they come back with P as a byte RTI pulls and PC at the saved address, one byte after the BRK
skipped; for every SP, also where the stack wraps (45_control_transfer.md R232, R233, R243, R244, 60_exceptions.md R302,
R308; decisions D3, D11, D17). -/
def Obligations.ReturnsUndoCallsAndEntries : Prop :=
  ∀ (w : Addr) (s : State),
    let p := (s.cpu.p &&& 0xCF#8) ||| 0x20#8
    (∃ t u, exec (.jsr w) s = .next t ∧ exec .rts t = .next u ∧ u.cpu = s.cpu) ∧
    (∃ t u, exec .brk s = .next t ∧ exec .rti t = .next u ∧ u.cpu = { s.cpu with p := p, pc := s.cpu.pc + 1#16 }) ∧
    (s.nmiLatch = true → ∃ u, exec .rti (serviceInterrupt s) = .next u ∧ u.cpu = { s.cpu with p := p })

/-! ### The unofficial read-modify-write instructions -/

/-- DCP, ISB, SLO, RLA, SRE and RRA complete: the official read-modify-write on memory, then the official operation of A on
the written byte; RRA adds with the carry its rotate gave (46_unofficial.md R262 to R267; decisions D6, D16, D39). -/
def Obligations.UnofficialReadModifyWrite : Prop :=
  ∀ (mem : Mem) (s : State),
    let c := carryOf s.cpu.p
    let a := s.cpu.a
    let asl := fun m : Byte => BitVec.ofNat 8 (2 * m.toNat)
    let lsr := fun m : Byte => BitVec.ofNat 8 (m.toNat / 2)
    let rol := fun m : Byte => BitVec.ofNat 8 (2 * m.toNat + c)
    let ror := fun m : Byte => BitVec.ofNat 8 (m.toNat / 2 + 128 * c)
    let top := fun m : Byte => cBit (decide (0x80 ≤ m.toNat))
    let low := fun m : Byte => cBit (decide (m.toNat % 2 = 1))
    exec (.dcp mem) s = .next (afterRmw mem s (fun m => m - 1#8) fun m =>
      { s.cpu with p := afterCompare s.cpu.p a (m - 1#8) }) ∧
    exec (.isb mem) s = .next (afterRmw mem s (fun m => m + 1#8) fun m => afterSub s.cpu (m + 1#8)) ∧
    exec (.slo mem) s = .next (afterRmw mem s asl fun m =>
      { s.cpu with a := a ||| asl m, p := writeFlags s.cpu.p 0x83#8 (nzBits (a ||| asl m) ||| top m) }) ∧
    exec (.rla mem) s = .next (afterRmw mem s rol fun m =>
      { s.cpu with a := a &&& rol m, p := writeFlags s.cpu.p 0x83#8 (nzBits (a &&& rol m) ||| top m) }) ∧
    exec (.sre mem) s = .next (afterRmw mem s lsr fun m =>
      { s.cpu with a := a ^^^ lsr m, p := writeFlags s.cpu.p 0x83#8 (nzBits (a ^^^ lsr m) ||| low m) }) ∧
    exec (.rra mem) s = .next (afterRmw mem s ror fun m =>
      afterAdd { s.cpu with p := writeFlags s.cpu.p 0x01#8 (low m) } (ror m))

/-! ### Addressing, cost and frame of every instruction -/

/-- The eight modes with an address give the effective addresses and extra cycles of 40_addressing_modes.md R132 to R142,
pointers read in the zero page with wrap, and change nothing (decisions D6, D13, D15, D42). -/
def Obligations.EffectiveAddresses : Prop :=
  ∀ (m : Mem) (s : State), resolve m s = ⟨effAddr m s, effExtra m s, s⟩

/-- The cost of every instruction that completes is base + extra + branched, base from the printed table
(40_addressing_modes.md R145, 30_encoding.md R107; decisions D7, D13). -/
def Obligations.CycleFormula : Prop :=
  ∀ (i : Instr) (op : Byte) (s t : State), i.opcode = some op → exec i s = .next t →
    t.out.cycles = s.out.cycles + baseCycles op + extraOf i s + (if branchTaken i s.cpu.p = some true then 1 else 0)

/-- Memory changes only where an instruction stores: every byte of RAM and ROM but the stored one reads as before, and the
PPU's memories change only through a store to a PPU register (20_memory.md R72; decision D16). -/
def Obligations.MemoryChangesOnlyWhereStored : Prop :=
  ∀ (i : Instr) (s t : State), exec i s = .next t →
    (∀ a, IsMemory a → (∀ e ∈ storedAt i s, ¬ SameRamByte e a) → t.peek a = s.peek a) ∧
    ((∀ e ∈ storedAt i s, ¬ IsPpuAddr e) →
      (∀ k, t.ppu.pat.read k = s.ppu.pat.read k) ∧ (∀ k, t.ppu.vram.read k = s.ppu.vram.read k) ∧
      (∀ k, t.ppu.oam.read k = s.ppu.oam.read k) ∧ (∀ k, t.ppu.pal.read k = s.ppu.pal.read k))

/-- No instruction touches the latches, the cartridge, the inputs, the frames put out, the audio tick, a transfer's cycles or
the PPU's counters, frame buffers and sprite-zero flag; one that stores nothing leaves the DMA Unit and the control, mask, scroll and sprite-address
registers (10_state.md R20 to R34; 60_exceptions.md R301). -/
def Obligations.InstructionsLeaveTheRestAlone : Prop :=
  ∀ (i : Instr) (s t : State), exec i s = .next t →
    (t.nmiLatch = s.nmiLatch ∧ t.irqLatch = s.irqLatch ∧ t.cart = s.cart ∧ t.buttons1 = s.buttons1 ∧
      t.buttons2 = s.buttons2 ∧ t.inputs = s.inputs ∧ t.out.frames = s.out.frames ∧ t.out.audioTick = s.out.audioTick ∧
      t.out.dmaCycles = s.out.dmaCycles) ∧
    (t.ppu.line = s.ppu.line ∧ t.ppu.dot = s.ppu.dot ∧ t.ppu.background = s.ppu.background ∧
      t.ppu.sprites = s.ppu.sprites ∧ t.ppu.sprite0Hit = s.ppu.sprite0Hit) ∧
    (storedAt i s = [] → t.dma = s.dma ∧ t.ram = s.ram ∧ t.out.audioWrites = s.out.audioWrites ∧
      t.ppu.ctrl = s.ppu.ctrl ∧ t.ppu.mask = s.ppu.mask ∧ t.ppu.oamAddr = s.ppu.oamAddr ∧
      t.ppu.scrollX = s.ppu.scrollX ∧ t.ppu.scrollY = s.ppu.scrollY ∧ t.ppu.addrToggle = s.ppu.addrToggle ∧
      t.port1.shift = s.port1.shift ∧ t.port2.shift = s.port2.shift ∧
      t.port1.strobe = s.port1.strobe ∧ t.port2.strobe = s.port2.strobe)

/-! ### The CPU bus -/

/-- CPU reads are routed by the ten rows of 20_memory.md R61. -/
def Obligations.ReadRouting : Prop :=
  ∀ (a : Addr) (s : State),
    let n := a.toNat
    let reg := ppuRegRead ((n - 0x2000) % 8) s.ppu
    let pad1 := controllerRead s.port1
    let pad2 := controllerRead s.port2
    (n < 0x0800 → busRead a s = (s.ram.read n, s)) ∧
    (0x0800 ≤ n ∧ n < 0x2000 → busRead a s = (s.ram.read (n % 0x0800), s)) ∧
    (0x2000 ≤ n ∧ n < 0x4000 → busRead a s = (reg.1, s.setPpu reg.2)) ∧
    (n = 0x4014 → busRead a s = (0x00#8, s)) ∧
    (n = 0x4016 → busRead a s = (pad1.1, s.setPort1 pad1.2)) ∧
    (n = 0x4017 → busRead a s = (pad2.1, s.setPort2 pad2.2)) ∧
    (0x4000 ≤ n ∧ n < 0x4020 ∧ n ≠ 0x4014 ∧ n ≠ 0x4016 ∧ n ≠ 0x4017 → busRead a s = (0x00#8, s)) ∧
    (0x8000 ≤ n ∧ n < 0xC000 → busRead a s = (s.cart.prg.read (n - 0x8000), s)) ∧
    (0xC000 ≤ n → busRead a s =
      (s.cart.prg.read (if s.cart.prgSize.bytes ≤ 0x4000 then n - 0xC000 else n - 0x8000), s)) ∧
    (0x4020 ≤ n ∧ n < 0x8000 → busRead a s = (0x00#8, s))

/-- CPU writes are routed by the nine rows of 20_memory.md R62 (0x4017 to controller 2 is decision D18); a byte written to
RAM is read back at that address and its three mirrors, and every other address reads as before (R75). -/
def Obligations.WriteRouting : Prop :=
  ∀ (a : Addr) (v : Byte) (s : State),
    let n := a.toNat
    (n < 0x0800 → busWrite a v s = s.setRam (s.ram.write n v)) ∧
    (0x0800 ≤ n ∧ n < 0x2000 → busWrite a v s = s.setRam (s.ram.write (n % 0x0800) v)) ∧
    (0x2000 ≤ n ∧ n < 0x4000 → busWrite a v s = s.setPpu (ppuRegWrite ((n - 0x2000) % 8) v s.ppu)) ∧
    (n = 0x4014 → busWrite a v s = s.setDma { pending := true, page := v }) ∧
    (n = 0x4016 → busWrite a v s = s.setPort1 (controllerWrite s.buttons1 v s.port1)) ∧
    (n = 0x4017 → busWrite a v s = s.setPort2 (controllerWrite s.buttons2 v s.port2)) ∧
    (0x4000 ≤ n ∧ n < 0x4020 ∧ n ≠ 0x4014 ∧ n ≠ 0x4016 ∧ n ≠ 0x4017 →
      busWrite a v s = s.setOut { s.out with audioWrites := s.out.audioWrites ++ [(a, v)] }) ∧
    (0x8000 ≤ n → busWrite a v s = s) ∧
    (0x4020 ≤ n ∧ n < 0x8000 → busWrite a v s = s) ∧
    (n < 0x2000 → ∀ b, (SameRamByte a b → (busWrite a v s).peek b = v) ∧
      (¬ SameRamByte a b → (busWrite a v s).peek b = s.peek b))

/-- Reads have no effect but at the addresses of 20_memory.md R64, and there only its named ones; a write outside R64's list
stores a byte in RAM or, from 0x4020 on, does nothing, and an audio write is an output event only (the routing of writes is
R62, rows 1, 2, 7, 8 and 9; that program ROM ignores them is derived there and decision D19, log entry 12). -/
def Obligations.ReadsAreIdempotent : Prop :=
  ∀ (a : Addr) (v : Byte) (s : State),
    let n := a.toNat
    let isStatus := 0x2000 ≤ n ∧ n < 0x4000 ∧ n % 8 = 2
    let isData := 0x2000 ≤ n ∧ n < 0x4000 ∧ n % 8 = 7
    (isStatus → (busRead a s).2 = s.setPpu { s.ppu with vblank := false, scrollToggle := false }) ∧
    (isData → ∃ b w, (busRead a s).2 = s.setPpu { s.ppu with readBuf := b, vramAddr := w }) ∧
    (n = 0x4016 → (busRead a s).2 = s.setPort1 { s.port1 with index := s.port1.index + 1 }) ∧
    (n = 0x4017 → (busRead a s).2 = s.setPort2 { s.port2 with index := s.port2.index + 1 }) ∧
    (¬ isStatus ∧ ¬ isData ∧ n ≠ 0x4016 ∧ n ≠ 0x4017 →
      (busRead a s).2 = s ∧ busRead a (busRead a s).2 = busRead a s) ∧
    (n < 0x2000 → busWrite a v s = s.setRam (s.ram.write (n % 0x0800) v)) ∧
    (0x4020 ≤ n → busWrite a v s = s) ∧
    (0x4000 ≤ n ∧ n < 0x4020 ∧ n ≠ 0x4014 ∧ n ≠ 0x4016 ∧ n ≠ 0x4017 →
      (busWrite a v s).setOut s.out = s)

/-! ### Interrupts -/

/-- An NMI is entered whatever I holds: PC and P as held are pushed, I is set and B cleared, its latch is cleared and the IRQ
latch kept, PC comes from 0xFFFA; the latch reaches the CPU step of the next system step as it stands; with both latches set
the IRQ stays latched and a second test at once would service nothing (60_exceptions.md R302, R304, R305; the pushed bits 4
and 5 are decision D11, the byte order of the vector D2). -/
def Obligations.NmiEntry : Prop :=
  ∀ s : State,
    let sp := s.cpu.sp
    let t := serviceInterrupt s
    (runDma (beginStep s)).nmiLatch = s.nmiLatch ∧
    (s.nmiLatch = true → t =
      ((s.setRam (((s.ram.write (stackIndex sp) (hiByte s.cpu.pc)).write (stackIndex (sp - 1#8)) (loByte s.cpu.pc)).write
          (stackIndex (sp - 2#8)) s.cpu.p)).withCpu
        { s.cpu with sp := sp - 3#8, p := (s.cpu.p ||| 0x04#8) &&& 0xEF#8,
                     pc := word (prgByte s.cart 0xFFFB#16) (prgByte s.cart 0xFFFA#16) }).setNmi false) ∧
    (s.nmiLatch = true ∧ s.irqLatch = true → t.irqLatch = true ∧ t.flag .i = true ∧ serviceInterrupt t = t)

/-- With no NMI waiting, an IRQ is entered exactly when I is 0, as an NMI is but through 0xFFFE, and its latch is cleared
only then; while I is 1 the latch stays set and nothing happens (60_exceptions.md R303; the pushed bits 4 and 5 are decision
D11, the byte order of the vector D2). -/
def Obligations.IrqEntryWhenNotMasked : Prop :=
  ∀ s : State, s.nmiLatch = false →
    let sp := s.cpu.sp
    (s.irqLatch = true ∧ s.flag .i = false → serviceInterrupt s =
      ((s.setRam (((s.ram.write (stackIndex sp) (hiByte s.cpu.pc)).write (stackIndex (sp - 1#8)) (loByte s.cpu.pc)).write
          (stackIndex (sp - 2#8)) s.cpu.p)).withCpu
        { s.cpu with sp := sp - 3#8, p := (s.cpu.p ||| 0x04#8) &&& 0xEF#8,
                     pc := word (prgByte s.cart 0xFFFF#16) (prgByte s.cart 0xFFFE#16) }).setIrq false) ∧
    (s.irqLatch = true ∧ s.flag .i = true → serviceInterrupt s = s) ∧
    (s.irqLatch = false → serviceInterrupt s = s)

/-! ### The picture unit -/

/-- CPU writes to the control, mask and sprite-address registers store the byte and do nothing else; scroll writes are X and
Y in turn, and a status read makes the next one X; a read of the sprite-data register gives the byte at the sprite address
and changes nothing (60_exceptions.md R321, R322, R324, R326, R330). -/
def Obligations.PpuPlainRegisters : Prop :=
  ∀ (a : Addr) (v : Byte) (s : State), IsPpuAddr a →
    let k := (a.toNat - 0x2000) % 8
    (k = 0 → busWrite a v s = s.setPpu { s.ppu with ctrl := v }) ∧
    (k = 1 → busWrite a v s = s.setPpu { s.ppu with mask := v }) ∧
    (k = 3 → busWrite a v s = s.setPpu { s.ppu with oamAddr := v }) ∧
    (k = 5 ∧ s.ppu.scrollToggle = false → busWrite a v s = s.setPpu { s.ppu with scrollX := v, scrollToggle := true }) ∧
    (k = 5 ∧ s.ppu.scrollToggle = true → busWrite a v s = s.setPpu { s.ppu with scrollY := v, scrollToggle := false }) ∧
    (k = 2 → (busRead a s).2.ppu.scrollToggle = false) ∧
    (k = 4 → busRead a s = (s.ppu.oam.read s.ppu.oamAddr.toNat, s))

/-- The data registers: a sprite-data write stores and advances the address (decision D36), an address write is high then
low (D22), a data write stores on the PPU bus and advances by 1 or 32, a status write is ignored (D21)
(60_exceptions.md R323, R325, R327, R328). -/
def Obligations.PpuDataWrites : Prop :=
  ∀ (a : Addr) (v : Byte) (s : State), IsPpuAddr a →
    let k := (a.toNat - 0x2000) % 8
    let p := s.ppu
    (k = 2 → busWrite a v s = s) ∧
    (k = 4 → busWrite a v s = s.setPpu { p with oam := p.oam.write p.oamAddr.toNat v, oamAddr := p.oamAddr + 1#8 }) ∧
    (k = 6 ∧ p.addrToggle = false → busWrite a v s = s.setPpu { p with vramAddr := word v 0x00#8, addrToggle := true }) ∧
    (k = 6 ∧ p.addrToggle = true →
      busWrite a v s = s.setPpu { p with vramAddr := word (hiByte p.vramAddr) v, addrToggle := false }) ∧
    (k = 7 → busWrite a v s = s.setPpu { busWritePpu p.vramAddr v p with
      vramAddr := p.vramAddr + (if bit p.ctrl 2 then 32#16 else 1#16) })

/-- A status read gives vblank in bit 7 and sprite-zero hit in bit 6, as they were, and 0 below, and clears vblank and the
scroll toggle only (decisions D20, D21); reads of the data register are one read late below 0x3F00 and immediate from there
on, the buffer then staying (decisions D22, D23); a write-only register reads as 0 with no effect (D19)
(60_exceptions.md R329, R331, R332). -/
def Obligations.PpuReadsWithEffects : Prop :=
  ∀ (a b : Addr) (s : State), IsPpuAddr a → IsPpuAddr b →
    let k := (a.toNat - 0x2000) % 8
    let at1 := s.ppu.vramAddr.toNat % 0x4000
    let r1 := busRead a s
    let r2 := busRead b r1.2
    (k = 2 → r1 = (BitVec.ofNat 8 (128 * s.ppu.vblank.toNat + 64 * s.ppu.sprite0Hit.toNat),
      s.setPpu { s.ppu with vblank := false, scrollToggle := false })) ∧
    (k = 7 → r1.2.ppu.vramAddr = s.ppu.vramAddr + (if bit s.ppu.ctrl 2 then 32#16 else 1#16)) ∧
    (k = 7 ∧ at1 < 0x3F00 → r1.1 = s.ppu.readBuf ∧ r1.2.ppu.readBuf = busReadPpu s.ppu.vramAddr s.ppu) ∧
    (k = 7 ∧ at1 < 0x3F00 ∧ (b.toNat - 0x2000) % 8 = 7 ∧ r1.2.ppu.vramAddr.toNat % 0x4000 < 0x3F00 →
      r2.1 = busReadPpu s.ppu.vramAddr s.ppu) ∧
    (k = 7 ∧ 0x3F00 ≤ at1 → r1.1 = busReadPpu s.ppu.vramAddr s.ppu ∧ r1.2.ppu.readBuf = s.ppu.readBuf) ∧
    (k = 0 ∨ k = 1 ∨ k = 3 ∨ k = 5 ∨ k = 6 → r1 = (0x00#8, s))

/-- The PPU bus, row by row: an address modulo 0x4000 names a byte of pattern memory below 0x2000, of video memory less 0x2000
below 0x3000 and less 0x3000 below 0x3F00, and a palette cell above, by one list of 32 for reads and one for writes; a byte
written is read back wherever its cell is read, and every other address reads as before (20_memory.md R66 to R68; the
reduction modulo 0x4000 is decision D22, the palette's formulas D24). -/
def Obligations.PpuBusRoutingAndPaletteMirrors : Prop :=
  let reads := [0, 1, 2, 3, 0, 5, 6, 7, 0, 9, 10, 11, 0, 13, 14, 15,
                0, 17, 18, 19, 4, 21, 22, 23, 8, 25, 26, 27, 12, 29, 30, 31]
  let writes := [0, 1, 2, 3, 4, 5, 6, 7, 8, 9, 10, 11, 12, 13, 14, 15,
                 0, 17, 18, 19, 4, 21, 22, 23, 8, 25, 26, 27, 12, 29, 30, 31]
  ∀ (a b : Addr) (v : Byte) (p : Ppu),
    let m := a.toNat % 0x4000
    let n := b.toNat % 0x4000
    let after := busReadPpu b (busWritePpu a v p)
    (m < 0x2000 →
      busReadPpu a p = p.pat.read m ∧ busWritePpu a v p = { p with pat := p.pat.write m v }) ∧
    (0x2000 ≤ m ∧ m < 0x3000 →
      busReadPpu a p = p.vram.read (m - 0x2000) ∧ busWritePpu a v p = { p with vram := p.vram.write (m - 0x2000) v }) ∧
    (0x3000 ≤ m ∧ m < 0x3F00 →
      busReadPpu a p = p.vram.read (m - 0x3000) ∧ busWritePpu a v p = { p with vram := p.vram.write (m - 0x3000) v }) ∧
    (0x3F00 ≤ m →
      busReadPpu a p = p.pal.read (reads.getD (a.toNat % 32) 0) ∧
      busWritePpu a v p = { p with pal := p.pal.write (writes.getD (a.toNat % 32) 0) v }) ∧
    (m < 0x3F00 ∧ n < 0x3F00 → after =
      if n = m ∨ (0x2000 ≤ m ∧ n = m + 0x1000) ∨ (0x2000 ≤ n ∧ m = n + 0x1000) then v else busReadPpu b p) ∧
    (0x3F00 ≤ m ∧ 0x3F00 ≤ n → after =
      if reads.getD (b.toNat % 32) 0 = writes.getD (a.toNat % 32) 0 then v else busReadPpu b p) ∧
    ((m < 0x3F00 ∧ 0x3F00 ≤ n) ∨ (0x3F00 ≤ m ∧ n < 0x3F00) → after = busReadPpu b p)

/-- What one completed scanline does, element by element, and that it leaves everything else as it was: the PPU's memories and
its other registers, the CPU, RAM, the DMA Unit, the controller ports, the IRQ latch, the inputs and the other outputs
(60_exceptions.md R311, R312, R315 to R317; 10_state.md R29, R30, R32; sprite-zero's raw Y is decision D25, the moment of the
rebuild D28, the sampling of the NMI enable D38). -/
def Obligations.LineCompletion : Prop :=
  ∀ s : State,
    let t := lineComplete s
    let n := s.ppu.line + 1
    t.ppu.dot = s.ppu.dot - 341 ∧
    t.ppu.line = (if n = 262 then 0 else n) ∧
    t.ppu.sprite0Hit = (if n = 262 then false else s.ppu.sprite0Hit ||
      decide ((s.ppu.oam.read 0).toNat = s.ppu.line ∧ bit s.ppu.mask 4 = true ∧ bit s.ppu.mask 3 = true)) ∧
    t.ppu.background = (if n = 262 then []
      else if n ≤ 240 ∧ n % 8 = 0 ∧ s.ppu.scrollY.toNat ≤ 240 then
        s.ppu.background ++ backgroundRow s.cart.horizontalMirror { s.ppu with line := n }
      else s.ppu.background) ∧
    t.ppu.vblank = (if n = 241 then true else if n = 262 then false else s.ppu.vblank) ∧
    t.nmiLatch = (if n = 241 then s.nmiLatch || bit s.ppu.ctrl 7 else if n = 262 then false else s.nmiLatch) ∧
    t.ppu.sprites = (if n = 262 then buildSprites s.ppu.oam s.ppu.pat (bit s.ppu.ctrl 3) else s.ppu.sprites) ∧
    t.out.frames = (if n = 262 then s.out.frames ++ [framePayload s.ppu] else s.out.frames) ∧
    t.ppu = { s.ppu with
      line := t.ppu.line, dot := t.ppu.dot, sprite0Hit := t.ppu.sprite0Hit, vblank := t.ppu.vblank
      background := t.ppu.background, sprites := t.ppu.sprites } ∧
    t = ((s.setPpu t.ppu).setNmi t.nmiLatch).setOut { s.out with frames := t.out.frames }

/-- The frame's end clears the two flags, sets line to 0, releases the NMI latch and emits the record: the palette of 32
mirrored entries, and each list only where its layer is enabled; over 89,342 dots from the start of a frame, however they
are cut up, exactly one record comes out and vblank is then false; a record, once emitted, does not change
(60_exceptions.md R316; which mask bits enable a layer is decision D20, the palette's mirrors D24). -/
def Obligations.FrameEndOncePerFrame : Prop :=
  (∀ s : State,
    let t := frameEnd s
    t.ppu.vblank = false ∧ t.ppu.sprite0Hit = false ∧ t.ppu.line = 0 ∧ t.nmiLatch = false ∧
    t.out.frames = s.out.frames ++ [{
      palette := (List.range 32).map (palRead s.ppu.pal)
      background := if bit s.ppu.mask 3 then some s.ppu.background else none
      sprites := if bit s.ppu.mask 4 then some s.ppu.sprites else none }] ∧
    t.ppu.background = [] ∧ t.ppu.sprites = buildSprites s.ppu.oam s.ppu.pat (bit s.ppu.ctrl 3)) ∧
  (∀ (s : State) (chunks : List Nat), s.ppu.line = 0 → s.ppu.dot = 0 → chunks.sum = 262 * 341 →
    let t := ppuRuns chunks s
    t.out.frames.length = s.out.frames.length + 1 ∧ t.ppu.vblank = false ∧ t.ppu.line = 0 ∧ t.ppu.dot = 0) ∧
  (∀ (n : Nat) (s : State), ∃ later, (ppuRun n s).out.frames = s.out.frames ++ later)

/-- The dots fed to the PPU may be cut up in any way; dots that do not reach 341 move the beam and change nothing else, and
those that reach it once complete one scanline (60_exceptions.md R310, R311; decision D33). -/
def Obligations.DotsInAnyChunking : Prop :=
  ∀ (m n : Nat) (s : State),
    let moved := s.setPpu { s.ppu with dot := s.ppu.dot + n }
    ppuRun n (ppuRun m s) = ppuRun (m + n) s ∧
    (s.ppu.dot + n < 341 → ppuRun n s = moved) ∧
    (341 ≤ s.ppu.dot + n ∧ s.ppu.dot + n < 682 → ppuRun n s = lineComplete moved)

/-- From any state between steps, any number of dots moves the beam that far in its frame of 89,342 dots, and completes as
many frames as that passes (60_exceptions.md R310, R311, R316). -/
def Obligations.BeamPosition : Prop :=
  ∀ (n : Nat) (s : State), s.ppu.line < 262 → s.ppu.dot < 341 →
    let t := ppuRun n s
    t.ppu.line < 262 ∧ t.ppu.dot < 341 ∧ t.ppu.frameDots = (s.ppu.frameDots + n) % 89342 ∧
    t.out.frames.length = s.out.frames.length + (s.ppu.frameDots + n) / 89342

/-- The 33 tiles of a row: tile and attribute bytes by the scroll-derived coordinates, with the horizontal mirroring of the
parameter, the two selector bits of the tile's 2x2 block, the scroll of the moment, and the pattern's pixels from the two
bit planes (60_exceptions.md R313, R314, R319; decisions D26, D27, D30). -/
def Obligations.BackgroundRowTiles : Prop :=
  ∀ (horizontal : Bool) (p : Ppu), (backgroundRow horizontal p).length = 33 ∧
    ∀ k, k < 33 →
      let ax := k + (p.scrollX.toNat + p.ctrl.toNat % 2 * 256) / 8
      let ay := (p.line / 8 - 1) + (p.scrollY.toNat + p.ctrl.toNat / 2 % 2 * 240) / 8
      let off := (ay / 30 % 2 * 2 + ax / 32 % 2) * 0x400
      let tx := ax % 32
      let ty := ay % 30
      let mirror := fun i : Nat => if horizontal ∧ (0x400 ≤ i ∧ i < 0x800 ∨ 0xC00 ≤ i) then i - 0x400 else i
      let id := (p.vram.read (mirror (off + ty * 32 + tx))).toNat
      let attr := (p.vram.read (mirror (off + 0x3C0 + ty / 4 * 8 + tx / 4))).toNat
      let base := if bit p.ctrl 4 then 0x1000 else 0x0000
      ∃ t, (backgroundRow horizontal p)[k]? = some t ∧
        t.paletteId.toNat = attr / 4 ^ (ty % 4 / 2 * 2 + tx % 4 / 2) % 4 ∧
        t.scrollX = p.scrollX ∧ t.scrollY = p.scrollY ∧
        ∀ r c : Fin 8, (t.pattern[r][c]).toNat =
          (p.pat.read (base + id * 16 + r)).toNat / 2 ^ (7 - c.val) % 2 +
          2 * ((p.pat.read (base + id * 16 + 8 + r)).toNat / 2 ^ (7 - c.val) % 2)

/-- The 64 sprites of a frame: four bytes each, Y less 8 modulo 256, and the pattern's pixels from the selected half of
pattern memory (60_exceptions.md R317 to R319; decisions D28 to D30, D37). -/
def Obligations.SpriteList : Prop :=
  ∀ (oam pat : Memory) (upper : Bool), (buildSprites oam pat upper).length = 64 ∧
    ∀ i, i < 64 →
      let base := if upper then 0x1000 else 0x0000
      let id := (oam.read (4 * i + 1)).toNat
      ∃ t, (buildSprites oam pat upper)[i]? = some t ∧
        t.y.toNat = ((oam.read (4 * i)).toNat + 248) % 256 ∧ t.id = oam.read (4 * i + 1) ∧
        t.attr = oam.read (4 * i + 2) ∧ t.x = oam.read (4 * i + 3) ∧
        ∀ r c : Fin 8, (t.pattern[r][c]).toNat =
          (pat.read (base + id * 16 + r)).toNat / 2 ^ (7 - c.val) % 2 +
          2 * ((pat.read (base + id * 16 + 8 + r)).toNat / 2 ^ (7 - c.val) % 2)

/-! ### DMA, controllers, audio, inputs -/

/-- A pending transfer copies the 256 bytes of the page in RAM to sprite memory from the latched address on, wrapping,
clears its flag, adds 514 cycles to the system step and none to the CPU step's own count, and changes nothing else; where none
is pending nothing is copied, nothing is charged and nothing changes (60_exceptions.md R340 to R342, R350; decision D31; the
field that holds the 514 is the model's choice, log entry 4). -/
def Obligations.DmaTransferCopiesAPage : Prop :=
  ∀ s : State,
    let t := runDma s
    (s.dma.pending = true →
      (∀ i, i < 256 →
        t.ppu.oam.read ((s.ppu.oamAddr.toNat + i) % 256) = s.ram.read ((s.dma.page.toNat * 256 + i) % 0x800)) ∧
      t = ((s.setPpu { s.ppu with oam := t.ppu.oam }).setDma { s.dma with pending := false }).setOut
        { s.out with dmaCycles := s.out.dmaCycles + 514 }) ∧
    (s.dma.pending = false → t = s)

/-- A byte with bit 0 set, written to a port, sets its strobe bit and copies its eight buttons; one with bit 0 clear clears
the strobe bit and the index; the other seven bits are ignored and nothing else changes. After the two writes, reads give the
buttons in order from button 0, over and over, in bit 0, and leave the strobe bit and the copy (60_exceptions.md R345, R346;
decisions D18, D32). -/
def Obligations.ControllersShiftOutButtons : Prop :=
  ∀ (v w : Byte) (n : Nat) (s : State),
    let k := n % 8
    let p1 := busWrite 0x4016#16 w (busWrite 0x4016#16 v s)
    let p2 := busWrite 0x4017#16 w (busWrite 0x4017#16 v s)
    let q1 := afterReads n 0x4016#16 p1
    let q2 := afterReads n 0x4017#16 p2
    (v.toNat % 2 = 1 →
      busWrite 0x4016#16 v s = s.setPort1 { s.port1 with strobe := true, shift := s.buttons1 } ∧
      busWrite 0x4017#16 v s = s.setPort2 { s.port2 with strobe := true, shift := s.buttons2 }) ∧
    (v.toNat % 2 = 0 →
      busWrite 0x4016#16 v s = s.setPort1 { s.port1 with strobe := false, index := 0 } ∧
      busWrite 0x4017#16 v s = s.setPort2 { s.port2 with strobe := false, index := 0 }) ∧
    (v.toNat % 2 = 1 ∧ w.toNat % 2 = 0 →
      (busRead 0x4016#16 q1).1 = (if s.buttons1[k]'(Nat.mod_lt n (by decide)) then 0x01#8 else 0x00#8) ∧
      (busRead 0x4017#16 q2).1 = (if s.buttons2[k]'(Nat.mod_lt n (by decide)) then 0x01#8 else 0x00#8) ∧
      q1 = s.setPort1 { strobe := false, shift := s.buttons1, index := q1.port1.index } ∧
      q2 = s.setPort2 { strobe := false, shift := s.buttons2, index := q2.port2.index })

/-- A write in the audio range is an output event with its address and byte and changes nothing of the CORE, a read there
gives 0, and each completed step's audio tick carries the system step's cycles, the transfer's and the CPU step's
(60_exceptions.md R348, R350; the step as unit of scheduling is decision D35; the fields that hold the outputs are the model's
choice, log entry 4). -/
def Obligations.AudioPort : Prop :=
  (∀ (a : Addr) (v : Byte) (s : State),
    (0x4000 ≤ a.toNat ∧ a.toNat ≤ 0x4013) ∨ a.toNat = 0x4015 ∨ (0x4018 ≤ a.toNat ∧ a.toNat ≤ 0x401F) →
    busWrite a v s = s.setOut { s.out with audioWrites := s.out.audioWrites ++ [(a, v)] } ∧
    busRead a s = (0x00#8, s)) ∧
  (∀ s t : State, step s = .next t → t.out.audioTick = t.out.dmaCycles + t.out.cycles)

/-- The input events due land at the start of a step, in order, and change only the buttons and the IRQ latch
(60_exceptions.md R301, R347, R350). Two things here are the model's choice: the schedule of the inputs as data (log entry 3),
and that a step starts with the outputs emptied (log entry 4). -/
def Obligations.InputsLandBetweenSteps : Prop :=
  ∀ (s : State) (now : List InputEvent) (later : List (List InputEvent)) (e : InputEvent),
    beginStep (s.setInputs []) = (s.setInputs []).setOut Outputs.empty ∧
    beginStep (s.setInputs ([] :: later)) = (s.setInputs later).setOut Outputs.empty ∧
    beginStep (s.setInputs ((now ++ [e]) :: later)) = applyInput (beginStep (s.setInputs (now :: later))) e ∧
    (∀ k, applyInput s (.keyDown .one k) = s.setButtons1 (s.buttons1.set k true) ∧
      applyInput s (.keyUp .one k) = s.setButtons1 (s.buttons1.set k false) ∧
      applyInput s (.keyDown .two k) = s.setButtons2 (s.buttons2.set k true) ∧
      applyInput s (.keyUp .two k) = s.setButtons2 (s.buttons2.set k false)) ∧
    applyInput s .irqIn = s.setIrq true

/-! ### The whole machine -/

/-- The invariant is kept: from every state that meets it, a step that completes gives a state that meets it
(10_state.md R24, R25, R27, R32, R33; 20_memory.md R65; 60_exceptions.md R310, R313). -/
def Obligations.StepKeepsInvariant : Prop :=
  ∀ s t : State, s.Inv → step s = .next t → t.Inv

/-- The invariant holds after reset, for every cartridge the CORE accepts and all initial memory images
(70_reset_and_hazards.md R380). -/
def Obligations.InvariantAtReset : Prop :=
  State.reset.Inv ∧ ∀ (cart : Cartridge) (init : MemInit), cart.Ok → init.Ok → (State.powerOn cart init).Inv

/-- What reset leaves, for every cartridge and all initial images: SP and P are the document's; PC from 0xFFFC (D4), the
memory images (D5, D30) and the zeros of everything else (D41) are the spec's decisions (10_state.md R37,
70_reset_and_hazards.md R380). -/
def Obligations.ResetValues : Prop :=
  ∀ (cart : Cartridge) (init : MemInit),
    let s := State.powerOn cart init
    s.cpu = { a := 0x00#8, x := 0x00#8, y := 0x00#8, sp := 0xFD#8, p := 0x24#8, pc := (read16 0xFFFC#16 s).1 } ∧
    s.nmiLatch = false ∧ s.irqLatch = false ∧
    s.ram = init.ram ∧ s.ppu.vram = init.vram ∧ s.ppu.oam = init.oam ∧ s.ppu.pal = init.pal ∧
    s.ppu.pat = cart.chr.getD init.pat ∧
    s.ppu.ctrl = 0x00#8 ∧ s.ppu.mask = 0x00#8 ∧ s.ppu.vblank = false ∧ s.ppu.sprite0Hit = false ∧
    s.ppu.oamAddr = 0x00#8 ∧ s.ppu.scrollX = 0x00#8 ∧ s.ppu.scrollY = 0x00#8 ∧ s.ppu.readBuf = 0x00#8 ∧
    s.ppu.scrollToggle = false ∧ s.ppu.addrToggle = false ∧ s.ppu.vramAddr = 0x0000#16 ∧
    s.ppu.line = 0 ∧ s.ppu.dot = 0 ∧ s.ppu.background = [] ∧
    s.ppu.sprites = buildSprites s.ppu.oam s.ppu.pat false ∧
    s.dma = { pending := false, page := 0x00#8 } ∧
    s.port1 = { strobe := false, shift := Vector.replicate 8 false, index := 0 } ∧ s.port2 = s.port1

/-- The cost of a system step: the `cycles` it puts out are the CPU step's, 2 to 9, whether or not a transfer ran; the count
for the dots and the audio tick has 514 more when a transfer was pending; and at most one frame comes out of it (00_scope.md
R5; 40_addressing_modes.md R145; 60_exceptions.md R310, R342, R350; the boundary is decision D1; decisions D7, D12, D35;
the fields are the model's choice, log entry 4). -/
def Obligations.StepCostAndFrames : Prop :=
  ∀ s t : State, step s = .next t →
    2 ≤ t.out.cycles ∧ t.out.cycles ≤ 9 ∧
    t.out.dmaCycles = (if s.dma.pending then 514 else 0) ∧
    t.out.audioTick = t.out.dmaCycles + t.out.cycles ∧
    (s.Inv → t.out.frames.length ≤ 1)

/-- Only the CPU step changes the CPU registers and RAM: the inputs, the DMA Unit and the PPU's scanlines leave them, and the
scanlines leave every memory; no step changes the cartridge (00_scope.md R5; 10_state.md R20, R27 "written by"; 20_memory.md
R62 row 8; 60_exceptions.md R341). -/
def Obligations.OtherAgentsLeaveCpuAndMemory : Prop :=
  ∀ s : State,
    (beginStep s).cpu = s.cpu ∧ (runDma s).cpu = s.cpu ∧ (finishStep s).cpu = s.cpu ∧
    (beginStep s).ram = s.ram ∧ (runDma s).ram = s.ram ∧ (finishStep s).ram = s.ram ∧
    (beginStep s).ppu = s.ppu ∧
    (runDma s).ppu.pat = s.ppu.pat ∧ (runDma s).ppu.vram = s.ppu.vram ∧ (runDma s).ppu.pal = s.ppu.pal ∧
    (finishStep s).ppu.pat = s.ppu.pat ∧ (finishStep s).ppu.vram = s.ppu.vram ∧
    (finishStep s).ppu.oam = s.ppu.oam ∧ (finishStep s).ppu.pal = s.ppu.pal ∧
    (∀ t, step s = .next t → t.cart = s.cart)
end

