-- ==== Sys2Proof/Laws/Bits.lean ====
section
/-! SUPPORT. The laws of bit fields, byte order and the flag bits of P. -/

namespace Sys2Proof

theorem bit_ext {a b : Byte} (h : ∀ k, k < 8 → bit a k = bit b k) : a = b :=
  BitVec.eq_of_getLsbD_eq fun k hk => h k hk

/-- Bit `j` of a byte with bit `k` written. -/
theorem bit_withBit (v : Byte) (k j : Nat) (b : Bool) (hk : k < 8) :
    bit (withBit v k b) j = if j = k then b else bit v j := by
  unfold withBit bit
  by_cases hj : j < 8
  · cases b <;> simp [hj]
    all_goals by_cases h : j = k
    · subst h; simp
    · rcases Nat.lt_or_gt_of_ne h with h' | h'
      · simp [h, h']
      · have h1 : ¬ j < k := by omega
        have h2 : j - k ≠ 0 := by omega
        simp [h, h1, h2]
    · subst h; simp
    · rcases Nat.lt_or_gt_of_ne h with h' | h'
      · simp [h, h']
      · have h1 : ¬ j < k := by omega
        have h2 : j - k ≠ 0 := by omega
        simp [h, h1, h2]
  · have : j ≠ k := by omega
    simp [this, BitVec.getLsbD_of_ge _ j (by omega : 8 ≤ j)]

/-- The bits of a 16-bit value put together from two bytes. -/
theorem word_getLsbD (h l : Byte) (k : Nat) :
    (word h l).getLsbD k = if k < 8 then l.getLsbD k else h.getLsbD (k - 8) := by
  unfold word
  exact BitVec.getLsbD_append.trans (by by_cases hk : k < 8 <;> simp [hk])

@[simp] theorem hiByte_word (h l : Byte) : hiByte (word h l) = h := by
  apply BitVec.eq_of_getLsbD_eq
  intro k hk
  rw [hiByte, BitVec.getLsbD_extractLsb', word_getLsbD]
  simp [hk]

@[simp] theorem loByte_word (h l : Byte) : loByte (word h l) = l := by
  apply BitVec.eq_of_getLsbD_eq
  intro k hk
  rw [loByte, BitVec.getLsbD_extractLsb', word_getLsbD]
  simp [hk]

@[simp] theorem word_hiByte_loByte (w : Addr) : word (hiByte w) (loByte w) = w := by
  apply BitVec.eq_of_getLsbD_eq
  intro k hk
  rw [word_getLsbD, hiByte, loByte, BitVec.getLsbD_extractLsb', BitVec.getLsbD_extractLsb']
  by_cases h : k < 8
  · simp [h]
  · have h1 : k - 8 < 8 := by omega
    have h2 : 8 + (k - 8) = k := by omega
    simp [h, h1, h2]

theorem word_toNat (h l : Byte) : (word h l).toNat = h.toNat * 256 + l.toNat := by
  simp only [word, BitVec.toNat_append]
  rw [← Nat.shiftLeft_add_eq_or_of_lt l.isLt, Nat.shiftLeft_eq]

theorem zext_toNat (b : Byte) : (zext b).toNat = b.toNat := by
  have := b.isLt
  simp [zext]; omega

theorem hiByte_toNat (w : Addr) : (hiByte w).toNat = w.toNat / 256 := by
  have := w.isLt
  simp only [hiByte, BitVec.extractLsb'_toNat, Nat.shiftRight_eq_div_pow]
  omega

theorem loByte_toNat (w : Addr) : (loByte w).toNat = w.toNat % 256 := by
  simp [loByte, BitVec.extractLsb'_toNat]

theorem addrPlus_toNat (a : Addr) (n : Nat) : (addrPlus a n).toNat = (a.toNat + n) % 65536 := by
  simp [addrPlus, BitVec.toNat_add]

namespace Machine

theorem flagBit_lt (f : Flag) : flagBit f < 8 := by cases f <;> decide

theorem flagBit_injective {f g : Flag} (h : flagBit f = flagBit g) : f = g := by
  revert h; cases f <;> cases g <;> decide

/-- A flag is the one written, or as before. -/
theorem flag_setFlag (s : State) (f g : Flag) (v : Bool) :
    (s.setFlag f v).flag g = if g = f then v else s.flag g := by
  unfold State.setFlag State.flag
  simp only [State.setP]
  rw [bit_withBit _ _ _ _ (flagBit_lt f)]
  by_cases h : g = f
  · simp [h]
  · have : flagBit g ≠ flagBit f := fun e => h (flagBit_injective e)
    simp [h, this]

@[simp] theorem flag_setFlag_same (s : State) (f : Flag) (v : Bool) : (s.setFlag f v).flag f = v := by
  simp [flag_setFlag]

/-- What SetZN leaves in each flag. -/
theorem flag_setZN (s : State) (v : Byte) (g : Flag) :
    (s.setZN v).flag g = match g with
      | .n => bit v 7
      | .z => decide (v = 0#8)
      | g => s.flag g := by
  unfold State.setZN
  rw [flag_setFlag, flag_setFlag]
  cases g <;> simp

end Machine

end Sys2Proof
end

