-- ==== Sys2Proof/Laws/Memory.lean ====
section
/-! SUPPORT. The laws of a byte array: read after write, and every operation keeps the canonical form and the range. -/

namespace Sys2Proof.Memory

/-! ### Read after write -/

theorem read_insert (m : Memory) (a b : Nat) (v : Byte) :
    (Memory.insert m a v).read b = if b = a then v else m.read b := by
  induction m with
  | nil =>
    by_cases h : b = a
    · subst h; simp [Memory.insert, Memory.read]
    · have h' : a ≠ b := fun e => h e.symm
      simp [Memory.insert, Memory.read, h, h']
  | cons c rest ih =>
    obtain ⟨k, w⟩ := c
    by_cases h : b = a
    · subst h
      rcases Nat.lt_trichotomy b k with hlt | heq | hgt
      · simp [Memory.insert, Memory.read, hlt]
      · subst heq; simp [Memory.insert, Memory.read]
      · have h1 : ¬ b < k := by omega
        have h2 : b ≠ k := by omega
        have h3 : k ≠ b := by omega
        simp [Memory.insert, Memory.read, h1, h2, h3, ih]
    · have h' : a ≠ b := fun e => h e.symm
      rcases Nat.lt_trichotomy a k with hlt | heq | hgt
      · simp [Memory.insert, Memory.read, hlt, h, h']
      · subst heq; simp [Memory.insert, Memory.read, h, h']
      · have h1 : ¬ a < k := by omega
        have h2 : a ≠ k := by omega
        simp [Memory.insert, Memory.read, h1, h2, h, ih]

theorem read_erase (m : Memory) (a b : Nat) :
    (Memory.erase m a).read b = if b = a then unlisted else m.read b := by
  induction m with
  | nil => simp [Memory.erase, Memory.read]
  | cons c rest ih =>
    obtain ⟨k, w⟩ := c
    unfold Memory.erase at ih ⊢
    by_cases hk : k = a
    · subst hk
      rw [List.filter_cons_of_neg (by simp), ih]
      by_cases h : b = k
      · simp [h]
      · have h' : k ≠ b := fun e => h e.symm
        simp [Memory.read, h, h']
    · rw [List.filter_cons_of_pos (by simp [hk])]
      by_cases h : k = b
      · subst h; simp [Memory.read, hk]
      · simp [Memory.read, h, ih]

/-- What a write does to every index. -/
theorem read_write (m : Memory) (a b : Nat) (v : Byte) :
    (m.write a v).read b = if b = a then v else m.read b := by
  unfold Memory.write
  split
  · next h => rw [read_erase, h]
  · exact read_insert m a b v

@[simp] theorem read_write_same (m : Memory) (a : Nat) (v : Byte) : (m.write a v).read a = v := by
  simp [read_write]

theorem read_write_ne (m : Memory) {a b : Nat} (v : Byte) (h : b ≠ a) : (m.write a v).read b = m.read b := by
  simp [read_write, h]

/-! ### The canonical form -/

theorem wfFrom_mono {lo lo' : Nat} (h : lo' ≤ lo) : ∀ {m : Memory}, wfFrom lo m = true → wfFrom lo' m = true
  | [], _ => rfl
  | (k, v) :: rest, hw => by
    simp only [wfFrom, Bool.and_eq_true, decide_eq_true_eq] at hw ⊢
    exact ⟨⟨by omega, hw.1.2⟩, hw.2⟩

theorem wfFrom_insert {v : Byte} (hv : v ≠ unlisted) :
    ∀ (m : Memory) (lo a : Nat), lo ≤ a → wfFrom lo m = true → wfFrom lo (Memory.insert m a v) = true
  | [], lo, a, h, _ => by simp [Memory.insert, wfFrom, h, hv]
  | (k, w) :: rest, lo, a, h, hw => by
    simp only [wfFrom, Bool.and_eq_true, decide_eq_true_eq] at hw
    obtain ⟨⟨h1, h2⟩, h3⟩ := hw
    unfold Memory.insert
    split
    · next hlt =>
      simp only [wfFrom, Bool.and_eq_true, decide_eq_true_eq]
      exact ⟨⟨h, hv⟩, ⟨by omega, h2⟩, h3⟩
    · next hlt =>
      split
      · next heq =>
        subst heq
        simp only [wfFrom, Bool.and_eq_true, decide_eq_true_eq]
        exact ⟨⟨h, hv⟩, h3⟩
      · next hne =>
        simp only [wfFrom, Bool.and_eq_true, decide_eq_true_eq]
        exact ⟨⟨h1, h2⟩, wfFrom_insert hv rest (k + 1) a (by omega) h3⟩

theorem wfFrom_filter (p : Host.Cell → Bool) :
    ∀ (m : Memory) (lo : Nat), wfFrom lo m = true → wfFrom lo (m.filter p) = true
  | [], _, _ => rfl
  | (k, w) :: rest, lo, hw => by
    simp only [wfFrom, Bool.and_eq_true, decide_eq_true_eq] at hw
    obtain ⟨⟨h1, h2⟩, h3⟩ := hw
    have ih := wfFrom_filter p rest (k + 1) h3
    by_cases hp : p (k, w)
    · rw [List.filter_cons_of_pos hp]
      simp only [wfFrom, Bool.and_eq_true, decide_eq_true_eq]
      exact ⟨⟨h1, h2⟩, ih⟩
    · rw [List.filter_cons_of_neg hp]
      exact wfFrom_mono (by omega) ih

theorem wf_erase {m : Memory} (h : m.wf = true) (a : Nat) : (m.erase a).wf = true := wfFrom_filter _ m 0 h

theorem wf_insert {m : Memory} (h : m.wf = true) (a : Nat) {v : Byte} (hv : v ≠ unlisted) : (m.insert a v).wf = true :=
  wfFrom_insert hv m 0 a (by omega) h

/-- A write keeps the canonical form. -/
theorem wf_write {m : Memory} (h : m.wf = true) (a : Nat) (v : Byte) : (m.write a v).wf = true := by
  unfold Memory.write
  split
  · exact wfFrom_filter _ m 0 h
  · next hv => exact wfFrom_insert hv m 0 a (by omega) h

theorem wfFrom_ofBytes : ∀ (vs : List Byte) (k : Nat), wfFrom k (ofBytes k vs) = true
  | [], _ => rfl
  | v :: vs, k => by
    unfold ofBytes
    split
    · exact wfFrom_mono (by omega) (wfFrom_ofBytes vs (k + 1))
    · next hv => simp [wfFrom, hv, wfFrom_ofBytes vs (k + 1)]

/-- An image made from bytes is canonical. -/
theorem wf_ofBytes (vs : List Byte) (k : Nat) : (ofBytes k vs).wf = true :=
  wfFrom_mono (by omega) (wfFrom_ofBytes vs k)

/-- Below its first index a canonical list reads as nothing listed. -/
theorem read_below : ∀ {m : Memory} {lo a : Nat}, wfFrom lo m = true → a < lo → m.read a = unlisted
  | [], _, _, _, _ => rfl
  | (k, w) :: rest, lo, a, hw, ha => by
    simp only [wfFrom, Bool.and_eq_true, decide_eq_true_eq] at hw
    have hk : k ≠ a := by omega
    simp only [Memory.read, hk, if_false]
    exact read_below hw.2 (by omega)

/-- Two canonical memories that read alike are the same list. -/
theorem ext_of_read : ∀ {m n : Memory} {lo lo' : Nat}, wfFrom lo m = true → wfFrom lo' n = true →
    (∀ a, m.read a = n.read a) → m = n
  | [], [], _, _, _, _, _ => rfl
  | [], (k, w) :: n, lo, lo', hm, hn, h => by
    simp only [wfFrom, Bool.and_eq_true, decide_eq_true_eq] at hn
    exact absurd (by simpa [Memory.read] using (h k).symm) hn.1.2
  | (k, w) :: m, [], lo, lo', hm, hn, h => by
    simp only [wfFrom, Bool.and_eq_true, decide_eq_true_eq] at hm
    exact absurd (by simpa [Memory.read] using h k) hm.1.2
  | (k, w) :: m, (j, u) :: n, lo, lo', hm, hn, h => by
    simp only [wfFrom, Bool.and_eq_true, decide_eq_true_eq] at hm hn
    rcases Nat.lt_trichotomy k j with hlt | heq | hgt
    · have h1 := h k
      have h2 : Memory.read ((j, u) :: n) k = unlisted :=
        read_below (lo := j) (by simp [wfFrom, hn.1.2, hn.2]) hlt
      rw [h2] at h1
      exact absurd (by simpa [Memory.read] using h1) hm.1.2
    · subst heq
      have h1 := h k
      simp only [Memory.read, if_true] at h1
      subst h1
      have : m = n := ext_of_read hm.2 hn.2 fun a => by
        by_cases ha : k = a
        · subst ha
          rw [read_below hm.2 (by omega), read_below hn.2 (by omega)]
        · have h2 := h a
          simpa [Memory.read, ha] using h2
      rw [this]
    · have h1 := h j
      have h2 : Memory.read ((k, w) :: m) j = unlisted :=
        read_below (lo := k) (by simp [wfFrom, hm.1.2, hm.2]) hgt
      rw [h2] at h1
      exact absurd (by simpa [Memory.read] using h1.symm) hn.1.2

/-! ### The range -/

theorem within_insert {size a : Nat} (ha : a < size) (v : Byte) :
    ∀ {m : Memory}, within size m = true → within size (Memory.insert m a v) = true
  | [], _ => by simp [Memory.insert, within, ha]
  | (k, w) :: rest, h => by
    simp only [within, List.all_cons, Bool.and_eq_true, decide_eq_true_eq] at h
    have ih := within_insert (m := rest) ha v h.2
    simp only [within] at ih ⊢
    unfold Memory.insert
    split
    · simp only [List.all_cons, Bool.and_eq_true, decide_eq_true_eq]
      exact ⟨ha, h.1, h.2⟩
    · split
      · simp only [List.all_cons, Bool.and_eq_true, decide_eq_true_eq]
        exact ⟨ha, h.2⟩
      · simp only [List.all_cons, Bool.and_eq_true, decide_eq_true_eq]
        exact ⟨h.1, ih⟩

/-- A write inside the range keeps the range. -/
theorem within_write {size a : Nat} {m : Memory} (h : within size m = true) (ha : a < size) (v : Byte) :
    within size (m.write a v) = true := by
  unfold Memory.write
  split
  · simp only [within, Memory.erase, List.all_eq_true] at h ⊢
    exact fun c hc => h c (List.mem_of_mem_filter hc)
  · exact within_insert ha v h

end Sys2Proof.Memory
end

