-- ==== Sys2Proof/Laws/State.lean ====
section
/-! SUPPORT. One lemma for each element of State and each named update: what the update writes and what it leaves alone. -/

namespace Sys2Proof.Machine.State

/-! ### setA -/

@[simp] theorem setA_a (s : State) (v : Byte) : (s.setA v).cpu.a = v := rfl
@[simp] theorem setA_x (s : State) (v : Byte) : (s.setA v).cpu.x = s.cpu.x := rfl
@[simp] theorem setA_y (s : State) (v : Byte) : (s.setA v).cpu.y = s.cpu.y := rfl
@[simp] theorem setA_sp (s : State) (v : Byte) : (s.setA v).cpu.sp = s.cpu.sp := rfl
@[simp] theorem setA_p (s : State) (v : Byte) : (s.setA v).cpu.p = s.cpu.p := rfl
@[simp] theorem setA_pc (s : State) (v : Byte) : (s.setA v).cpu.pc = s.cpu.pc := rfl
@[simp] theorem setA_nmiLatch (s : State) (v : Byte) : (s.setA v).nmiLatch = s.nmiLatch := rfl
@[simp] theorem setA_irqLatch (s : State) (v : Byte) : (s.setA v).irqLatch = s.irqLatch := rfl
@[simp] theorem setA_ram (s : State) (v : Byte) : (s.setA v).ram = s.ram := rfl
@[simp] theorem setA_ppu (s : State) (v : Byte) : (s.setA v).ppu = s.ppu := rfl
@[simp] theorem setA_dma (s : State) (v : Byte) : (s.setA v).dma = s.dma := rfl
@[simp] theorem setA_port1 (s : State) (v : Byte) : (s.setA v).port1 = s.port1 := rfl
@[simp] theorem setA_port2 (s : State) (v : Byte) : (s.setA v).port2 = s.port2 := rfl
@[simp] theorem setA_cart (s : State) (v : Byte) : (s.setA v).cart = s.cart := rfl
@[simp] theorem setA_buttons1 (s : State) (v : Byte) : (s.setA v).buttons1 = s.buttons1 := rfl
@[simp] theorem setA_buttons2 (s : State) (v : Byte) : (s.setA v).buttons2 = s.buttons2 := rfl
@[simp] theorem setA_inputs (s : State) (v : Byte) : (s.setA v).inputs = s.inputs := rfl
@[simp] theorem setA_out (s : State) (v : Byte) : (s.setA v).out = s.out := rfl

/-! ### setX -/

@[simp] theorem setX_a (s : State) (v : Byte) : (s.setX v).cpu.a = s.cpu.a := rfl
@[simp] theorem setX_x (s : State) (v : Byte) : (s.setX v).cpu.x = v := rfl
@[simp] theorem setX_y (s : State) (v : Byte) : (s.setX v).cpu.y = s.cpu.y := rfl
@[simp] theorem setX_sp (s : State) (v : Byte) : (s.setX v).cpu.sp = s.cpu.sp := rfl
@[simp] theorem setX_p (s : State) (v : Byte) : (s.setX v).cpu.p = s.cpu.p := rfl
@[simp] theorem setX_pc (s : State) (v : Byte) : (s.setX v).cpu.pc = s.cpu.pc := rfl
@[simp] theorem setX_nmiLatch (s : State) (v : Byte) : (s.setX v).nmiLatch = s.nmiLatch := rfl
@[simp] theorem setX_irqLatch (s : State) (v : Byte) : (s.setX v).irqLatch = s.irqLatch := rfl
@[simp] theorem setX_ram (s : State) (v : Byte) : (s.setX v).ram = s.ram := rfl
@[simp] theorem setX_ppu (s : State) (v : Byte) : (s.setX v).ppu = s.ppu := rfl
@[simp] theorem setX_dma (s : State) (v : Byte) : (s.setX v).dma = s.dma := rfl
@[simp] theorem setX_port1 (s : State) (v : Byte) : (s.setX v).port1 = s.port1 := rfl
@[simp] theorem setX_port2 (s : State) (v : Byte) : (s.setX v).port2 = s.port2 := rfl
@[simp] theorem setX_cart (s : State) (v : Byte) : (s.setX v).cart = s.cart := rfl
@[simp] theorem setX_buttons1 (s : State) (v : Byte) : (s.setX v).buttons1 = s.buttons1 := rfl
@[simp] theorem setX_buttons2 (s : State) (v : Byte) : (s.setX v).buttons2 = s.buttons2 := rfl
@[simp] theorem setX_inputs (s : State) (v : Byte) : (s.setX v).inputs = s.inputs := rfl
@[simp] theorem setX_out (s : State) (v : Byte) : (s.setX v).out = s.out := rfl

/-! ### setY -/

@[simp] theorem setY_a (s : State) (v : Byte) : (s.setY v).cpu.a = s.cpu.a := rfl
@[simp] theorem setY_x (s : State) (v : Byte) : (s.setY v).cpu.x = s.cpu.x := rfl
@[simp] theorem setY_y (s : State) (v : Byte) : (s.setY v).cpu.y = v := rfl
@[simp] theorem setY_sp (s : State) (v : Byte) : (s.setY v).cpu.sp = s.cpu.sp := rfl
@[simp] theorem setY_p (s : State) (v : Byte) : (s.setY v).cpu.p = s.cpu.p := rfl
@[simp] theorem setY_pc (s : State) (v : Byte) : (s.setY v).cpu.pc = s.cpu.pc := rfl
@[simp] theorem setY_nmiLatch (s : State) (v : Byte) : (s.setY v).nmiLatch = s.nmiLatch := rfl
@[simp] theorem setY_irqLatch (s : State) (v : Byte) : (s.setY v).irqLatch = s.irqLatch := rfl
@[simp] theorem setY_ram (s : State) (v : Byte) : (s.setY v).ram = s.ram := rfl
@[simp] theorem setY_ppu (s : State) (v : Byte) : (s.setY v).ppu = s.ppu := rfl
@[simp] theorem setY_dma (s : State) (v : Byte) : (s.setY v).dma = s.dma := rfl
@[simp] theorem setY_port1 (s : State) (v : Byte) : (s.setY v).port1 = s.port1 := rfl
@[simp] theorem setY_port2 (s : State) (v : Byte) : (s.setY v).port2 = s.port2 := rfl
@[simp] theorem setY_cart (s : State) (v : Byte) : (s.setY v).cart = s.cart := rfl
@[simp] theorem setY_buttons1 (s : State) (v : Byte) : (s.setY v).buttons1 = s.buttons1 := rfl
@[simp] theorem setY_buttons2 (s : State) (v : Byte) : (s.setY v).buttons2 = s.buttons2 := rfl
@[simp] theorem setY_inputs (s : State) (v : Byte) : (s.setY v).inputs = s.inputs := rfl
@[simp] theorem setY_out (s : State) (v : Byte) : (s.setY v).out = s.out := rfl

/-! ### setSp -/

@[simp] theorem setSp_a (s : State) (v : Byte) : (s.setSp v).cpu.a = s.cpu.a := rfl
@[simp] theorem setSp_x (s : State) (v : Byte) : (s.setSp v).cpu.x = s.cpu.x := rfl
@[simp] theorem setSp_y (s : State) (v : Byte) : (s.setSp v).cpu.y = s.cpu.y := rfl
@[simp] theorem setSp_sp (s : State) (v : Byte) : (s.setSp v).cpu.sp = v := rfl
@[simp] theorem setSp_p (s : State) (v : Byte) : (s.setSp v).cpu.p = s.cpu.p := rfl
@[simp] theorem setSp_pc (s : State) (v : Byte) : (s.setSp v).cpu.pc = s.cpu.pc := rfl
@[simp] theorem setSp_nmiLatch (s : State) (v : Byte) : (s.setSp v).nmiLatch = s.nmiLatch := rfl
@[simp] theorem setSp_irqLatch (s : State) (v : Byte) : (s.setSp v).irqLatch = s.irqLatch := rfl
@[simp] theorem setSp_ram (s : State) (v : Byte) : (s.setSp v).ram = s.ram := rfl
@[simp] theorem setSp_ppu (s : State) (v : Byte) : (s.setSp v).ppu = s.ppu := rfl
@[simp] theorem setSp_dma (s : State) (v : Byte) : (s.setSp v).dma = s.dma := rfl
@[simp] theorem setSp_port1 (s : State) (v : Byte) : (s.setSp v).port1 = s.port1 := rfl
@[simp] theorem setSp_port2 (s : State) (v : Byte) : (s.setSp v).port2 = s.port2 := rfl
@[simp] theorem setSp_cart (s : State) (v : Byte) : (s.setSp v).cart = s.cart := rfl
@[simp] theorem setSp_buttons1 (s : State) (v : Byte) : (s.setSp v).buttons1 = s.buttons1 := rfl
@[simp] theorem setSp_buttons2 (s : State) (v : Byte) : (s.setSp v).buttons2 = s.buttons2 := rfl
@[simp] theorem setSp_inputs (s : State) (v : Byte) : (s.setSp v).inputs = s.inputs := rfl
@[simp] theorem setSp_out (s : State) (v : Byte) : (s.setSp v).out = s.out := rfl

/-! ### setP -/

@[simp] theorem setP_a (s : State) (v : Byte) : (s.setP v).cpu.a = s.cpu.a := rfl
@[simp] theorem setP_x (s : State) (v : Byte) : (s.setP v).cpu.x = s.cpu.x := rfl
@[simp] theorem setP_y (s : State) (v : Byte) : (s.setP v).cpu.y = s.cpu.y := rfl
@[simp] theorem setP_sp (s : State) (v : Byte) : (s.setP v).cpu.sp = s.cpu.sp := rfl
@[simp] theorem setP_p (s : State) (v : Byte) : (s.setP v).cpu.p = v := rfl
@[simp] theorem setP_pc (s : State) (v : Byte) : (s.setP v).cpu.pc = s.cpu.pc := rfl
@[simp] theorem setP_nmiLatch (s : State) (v : Byte) : (s.setP v).nmiLatch = s.nmiLatch := rfl
@[simp] theorem setP_irqLatch (s : State) (v : Byte) : (s.setP v).irqLatch = s.irqLatch := rfl
@[simp] theorem setP_ram (s : State) (v : Byte) : (s.setP v).ram = s.ram := rfl
@[simp] theorem setP_ppu (s : State) (v : Byte) : (s.setP v).ppu = s.ppu := rfl
@[simp] theorem setP_dma (s : State) (v : Byte) : (s.setP v).dma = s.dma := rfl
@[simp] theorem setP_port1 (s : State) (v : Byte) : (s.setP v).port1 = s.port1 := rfl
@[simp] theorem setP_port2 (s : State) (v : Byte) : (s.setP v).port2 = s.port2 := rfl
@[simp] theorem setP_cart (s : State) (v : Byte) : (s.setP v).cart = s.cart := rfl
@[simp] theorem setP_buttons1 (s : State) (v : Byte) : (s.setP v).buttons1 = s.buttons1 := rfl
@[simp] theorem setP_buttons2 (s : State) (v : Byte) : (s.setP v).buttons2 = s.buttons2 := rfl
@[simp] theorem setP_inputs (s : State) (v : Byte) : (s.setP v).inputs = s.inputs := rfl
@[simp] theorem setP_out (s : State) (v : Byte) : (s.setP v).out = s.out := rfl

/-! ### setPc -/

@[simp] theorem setPc_a (s : State) (v : Addr) : (s.setPc v).cpu.a = s.cpu.a := rfl
@[simp] theorem setPc_x (s : State) (v : Addr) : (s.setPc v).cpu.x = s.cpu.x := rfl
@[simp] theorem setPc_y (s : State) (v : Addr) : (s.setPc v).cpu.y = s.cpu.y := rfl
@[simp] theorem setPc_sp (s : State) (v : Addr) : (s.setPc v).cpu.sp = s.cpu.sp := rfl
@[simp] theorem setPc_p (s : State) (v : Addr) : (s.setPc v).cpu.p = s.cpu.p := rfl
@[simp] theorem setPc_pc (s : State) (v : Addr) : (s.setPc v).cpu.pc = v := rfl
@[simp] theorem setPc_nmiLatch (s : State) (v : Addr) : (s.setPc v).nmiLatch = s.nmiLatch := rfl
@[simp] theorem setPc_irqLatch (s : State) (v : Addr) : (s.setPc v).irqLatch = s.irqLatch := rfl
@[simp] theorem setPc_ram (s : State) (v : Addr) : (s.setPc v).ram = s.ram := rfl
@[simp] theorem setPc_ppu (s : State) (v : Addr) : (s.setPc v).ppu = s.ppu := rfl
@[simp] theorem setPc_dma (s : State) (v : Addr) : (s.setPc v).dma = s.dma := rfl
@[simp] theorem setPc_port1 (s : State) (v : Addr) : (s.setPc v).port1 = s.port1 := rfl
@[simp] theorem setPc_port2 (s : State) (v : Addr) : (s.setPc v).port2 = s.port2 := rfl
@[simp] theorem setPc_cart (s : State) (v : Addr) : (s.setPc v).cart = s.cart := rfl
@[simp] theorem setPc_buttons1 (s : State) (v : Addr) : (s.setPc v).buttons1 = s.buttons1 := rfl
@[simp] theorem setPc_buttons2 (s : State) (v : Addr) : (s.setPc v).buttons2 = s.buttons2 := rfl
@[simp] theorem setPc_inputs (s : State) (v : Addr) : (s.setPc v).inputs = s.inputs := rfl
@[simp] theorem setPc_out (s : State) (v : Addr) : (s.setPc v).out = s.out := rfl

/-! ### setNmi -/

@[simp] theorem setNmi_cpu (s : State) (v : Bool) : (s.setNmi v).cpu = s.cpu := rfl
@[simp] theorem setNmi_nmiLatch (s : State) (v : Bool) : (s.setNmi v).nmiLatch = v := rfl
@[simp] theorem setNmi_irqLatch (s : State) (v : Bool) : (s.setNmi v).irqLatch = s.irqLatch := rfl
@[simp] theorem setNmi_ram (s : State) (v : Bool) : (s.setNmi v).ram = s.ram := rfl
@[simp] theorem setNmi_ppu (s : State) (v : Bool) : (s.setNmi v).ppu = s.ppu := rfl
@[simp] theorem setNmi_dma (s : State) (v : Bool) : (s.setNmi v).dma = s.dma := rfl
@[simp] theorem setNmi_port1 (s : State) (v : Bool) : (s.setNmi v).port1 = s.port1 := rfl
@[simp] theorem setNmi_port2 (s : State) (v : Bool) : (s.setNmi v).port2 = s.port2 := rfl
@[simp] theorem setNmi_cart (s : State) (v : Bool) : (s.setNmi v).cart = s.cart := rfl
@[simp] theorem setNmi_buttons1 (s : State) (v : Bool) : (s.setNmi v).buttons1 = s.buttons1 := rfl
@[simp] theorem setNmi_buttons2 (s : State) (v : Bool) : (s.setNmi v).buttons2 = s.buttons2 := rfl
@[simp] theorem setNmi_inputs (s : State) (v : Bool) : (s.setNmi v).inputs = s.inputs := rfl
@[simp] theorem setNmi_out (s : State) (v : Bool) : (s.setNmi v).out = s.out := rfl

/-! ### setIrq -/

@[simp] theorem setIrq_cpu (s : State) (v : Bool) : (s.setIrq v).cpu = s.cpu := rfl
@[simp] theorem setIrq_nmiLatch (s : State) (v : Bool) : (s.setIrq v).nmiLatch = s.nmiLatch := rfl
@[simp] theorem setIrq_irqLatch (s : State) (v : Bool) : (s.setIrq v).irqLatch = v := rfl
@[simp] theorem setIrq_ram (s : State) (v : Bool) : (s.setIrq v).ram = s.ram := rfl
@[simp] theorem setIrq_ppu (s : State) (v : Bool) : (s.setIrq v).ppu = s.ppu := rfl
@[simp] theorem setIrq_dma (s : State) (v : Bool) : (s.setIrq v).dma = s.dma := rfl
@[simp] theorem setIrq_port1 (s : State) (v : Bool) : (s.setIrq v).port1 = s.port1 := rfl
@[simp] theorem setIrq_port2 (s : State) (v : Bool) : (s.setIrq v).port2 = s.port2 := rfl
@[simp] theorem setIrq_cart (s : State) (v : Bool) : (s.setIrq v).cart = s.cart := rfl
@[simp] theorem setIrq_buttons1 (s : State) (v : Bool) : (s.setIrq v).buttons1 = s.buttons1 := rfl
@[simp] theorem setIrq_buttons2 (s : State) (v : Bool) : (s.setIrq v).buttons2 = s.buttons2 := rfl
@[simp] theorem setIrq_inputs (s : State) (v : Bool) : (s.setIrq v).inputs = s.inputs := rfl
@[simp] theorem setIrq_out (s : State) (v : Bool) : (s.setIrq v).out = s.out := rfl

/-! ### setRam -/

@[simp] theorem setRam_cpu (s : State) (v : Memory) : (s.setRam v).cpu = s.cpu := rfl
@[simp] theorem setRam_nmiLatch (s : State) (v : Memory) : (s.setRam v).nmiLatch = s.nmiLatch := rfl
@[simp] theorem setRam_irqLatch (s : State) (v : Memory) : (s.setRam v).irqLatch = s.irqLatch := rfl
@[simp] theorem setRam_ram (s : State) (v : Memory) : (s.setRam v).ram = v := rfl
@[simp] theorem setRam_ppu (s : State) (v : Memory) : (s.setRam v).ppu = s.ppu := rfl
@[simp] theorem setRam_dma (s : State) (v : Memory) : (s.setRam v).dma = s.dma := rfl
@[simp] theorem setRam_port1 (s : State) (v : Memory) : (s.setRam v).port1 = s.port1 := rfl
@[simp] theorem setRam_port2 (s : State) (v : Memory) : (s.setRam v).port2 = s.port2 := rfl
@[simp] theorem setRam_cart (s : State) (v : Memory) : (s.setRam v).cart = s.cart := rfl
@[simp] theorem setRam_buttons1 (s : State) (v : Memory) : (s.setRam v).buttons1 = s.buttons1 := rfl
@[simp] theorem setRam_buttons2 (s : State) (v : Memory) : (s.setRam v).buttons2 = s.buttons2 := rfl
@[simp] theorem setRam_inputs (s : State) (v : Memory) : (s.setRam v).inputs = s.inputs := rfl
@[simp] theorem setRam_out (s : State) (v : Memory) : (s.setRam v).out = s.out := rfl

/-! ### setPpu -/

@[simp] theorem setPpu_cpu (s : State) (v : Ppu) : (s.setPpu v).cpu = s.cpu := rfl
@[simp] theorem setPpu_nmiLatch (s : State) (v : Ppu) : (s.setPpu v).nmiLatch = s.nmiLatch := rfl
@[simp] theorem setPpu_irqLatch (s : State) (v : Ppu) : (s.setPpu v).irqLatch = s.irqLatch := rfl
@[simp] theorem setPpu_ram (s : State) (v : Ppu) : (s.setPpu v).ram = s.ram := rfl
@[simp] theorem setPpu_ppu (s : State) (v : Ppu) : (s.setPpu v).ppu = v := rfl
@[simp] theorem setPpu_dma (s : State) (v : Ppu) : (s.setPpu v).dma = s.dma := rfl
@[simp] theorem setPpu_port1 (s : State) (v : Ppu) : (s.setPpu v).port1 = s.port1 := rfl
@[simp] theorem setPpu_port2 (s : State) (v : Ppu) : (s.setPpu v).port2 = s.port2 := rfl
@[simp] theorem setPpu_cart (s : State) (v : Ppu) : (s.setPpu v).cart = s.cart := rfl
@[simp] theorem setPpu_buttons1 (s : State) (v : Ppu) : (s.setPpu v).buttons1 = s.buttons1 := rfl
@[simp] theorem setPpu_buttons2 (s : State) (v : Ppu) : (s.setPpu v).buttons2 = s.buttons2 := rfl
@[simp] theorem setPpu_inputs (s : State) (v : Ppu) : (s.setPpu v).inputs = s.inputs := rfl
@[simp] theorem setPpu_out (s : State) (v : Ppu) : (s.setPpu v).out = s.out := rfl

/-! ### setDma -/

@[simp] theorem setDma_cpu (s : State) (v : Dma) : (s.setDma v).cpu = s.cpu := rfl
@[simp] theorem setDma_nmiLatch (s : State) (v : Dma) : (s.setDma v).nmiLatch = s.nmiLatch := rfl
@[simp] theorem setDma_irqLatch (s : State) (v : Dma) : (s.setDma v).irqLatch = s.irqLatch := rfl
@[simp] theorem setDma_ram (s : State) (v : Dma) : (s.setDma v).ram = s.ram := rfl
@[simp] theorem setDma_ppu (s : State) (v : Dma) : (s.setDma v).ppu = s.ppu := rfl
@[simp] theorem setDma_dma (s : State) (v : Dma) : (s.setDma v).dma = v := rfl
@[simp] theorem setDma_port1 (s : State) (v : Dma) : (s.setDma v).port1 = s.port1 := rfl
@[simp] theorem setDma_port2 (s : State) (v : Dma) : (s.setDma v).port2 = s.port2 := rfl
@[simp] theorem setDma_cart (s : State) (v : Dma) : (s.setDma v).cart = s.cart := rfl
@[simp] theorem setDma_buttons1 (s : State) (v : Dma) : (s.setDma v).buttons1 = s.buttons1 := rfl
@[simp] theorem setDma_buttons2 (s : State) (v : Dma) : (s.setDma v).buttons2 = s.buttons2 := rfl
@[simp] theorem setDma_inputs (s : State) (v : Dma) : (s.setDma v).inputs = s.inputs := rfl
@[simp] theorem setDma_out (s : State) (v : Dma) : (s.setDma v).out = s.out := rfl

/-! ### setPort1 -/

@[simp] theorem setPort1_cpu (s : State) (v : Controller) : (s.setPort1 v).cpu = s.cpu := rfl
@[simp] theorem setPort1_nmiLatch (s : State) (v : Controller) : (s.setPort1 v).nmiLatch = s.nmiLatch := rfl
@[simp] theorem setPort1_irqLatch (s : State) (v : Controller) : (s.setPort1 v).irqLatch = s.irqLatch := rfl
@[simp] theorem setPort1_ram (s : State) (v : Controller) : (s.setPort1 v).ram = s.ram := rfl
@[simp] theorem setPort1_ppu (s : State) (v : Controller) : (s.setPort1 v).ppu = s.ppu := rfl
@[simp] theorem setPort1_dma (s : State) (v : Controller) : (s.setPort1 v).dma = s.dma := rfl
@[simp] theorem setPort1_port1 (s : State) (v : Controller) : (s.setPort1 v).port1 = v := rfl
@[simp] theorem setPort1_port2 (s : State) (v : Controller) : (s.setPort1 v).port2 = s.port2 := rfl
@[simp] theorem setPort1_cart (s : State) (v : Controller) : (s.setPort1 v).cart = s.cart := rfl
@[simp] theorem setPort1_buttons1 (s : State) (v : Controller) : (s.setPort1 v).buttons1 = s.buttons1 := rfl
@[simp] theorem setPort1_buttons2 (s : State) (v : Controller) : (s.setPort1 v).buttons2 = s.buttons2 := rfl
@[simp] theorem setPort1_inputs (s : State) (v : Controller) : (s.setPort1 v).inputs = s.inputs := rfl
@[simp] theorem setPort1_out (s : State) (v : Controller) : (s.setPort1 v).out = s.out := rfl

/-! ### setPort2 -/

@[simp] theorem setPort2_cpu (s : State) (v : Controller) : (s.setPort2 v).cpu = s.cpu := rfl
@[simp] theorem setPort2_nmiLatch (s : State) (v : Controller) : (s.setPort2 v).nmiLatch = s.nmiLatch := rfl
@[simp] theorem setPort2_irqLatch (s : State) (v : Controller) : (s.setPort2 v).irqLatch = s.irqLatch := rfl
@[simp] theorem setPort2_ram (s : State) (v : Controller) : (s.setPort2 v).ram = s.ram := rfl
@[simp] theorem setPort2_ppu (s : State) (v : Controller) : (s.setPort2 v).ppu = s.ppu := rfl
@[simp] theorem setPort2_dma (s : State) (v : Controller) : (s.setPort2 v).dma = s.dma := rfl
@[simp] theorem setPort2_port1 (s : State) (v : Controller) : (s.setPort2 v).port1 = s.port1 := rfl
@[simp] theorem setPort2_port2 (s : State) (v : Controller) : (s.setPort2 v).port2 = v := rfl
@[simp] theorem setPort2_cart (s : State) (v : Controller) : (s.setPort2 v).cart = s.cart := rfl
@[simp] theorem setPort2_buttons1 (s : State) (v : Controller) : (s.setPort2 v).buttons1 = s.buttons1 := rfl
@[simp] theorem setPort2_buttons2 (s : State) (v : Controller) : (s.setPort2 v).buttons2 = s.buttons2 := rfl
@[simp] theorem setPort2_inputs (s : State) (v : Controller) : (s.setPort2 v).inputs = s.inputs := rfl
@[simp] theorem setPort2_out (s : State) (v : Controller) : (s.setPort2 v).out = s.out := rfl

/-! ### setButtons1 -/

@[simp] theorem setButtons1_cpu (s : State) (v : Vector Bool 8) : (s.setButtons1 v).cpu = s.cpu := rfl
@[simp] theorem setButtons1_nmiLatch (s : State) (v : Vector Bool 8) : (s.setButtons1 v).nmiLatch = s.nmiLatch := rfl
@[simp] theorem setButtons1_irqLatch (s : State) (v : Vector Bool 8) : (s.setButtons1 v).irqLatch = s.irqLatch := rfl
@[simp] theorem setButtons1_ram (s : State) (v : Vector Bool 8) : (s.setButtons1 v).ram = s.ram := rfl
@[simp] theorem setButtons1_ppu (s : State) (v : Vector Bool 8) : (s.setButtons1 v).ppu = s.ppu := rfl
@[simp] theorem setButtons1_dma (s : State) (v : Vector Bool 8) : (s.setButtons1 v).dma = s.dma := rfl
@[simp] theorem setButtons1_port1 (s : State) (v : Vector Bool 8) : (s.setButtons1 v).port1 = s.port1 := rfl
@[simp] theorem setButtons1_port2 (s : State) (v : Vector Bool 8) : (s.setButtons1 v).port2 = s.port2 := rfl
@[simp] theorem setButtons1_cart (s : State) (v : Vector Bool 8) : (s.setButtons1 v).cart = s.cart := rfl
@[simp] theorem setButtons1_buttons1 (s : State) (v : Vector Bool 8) : (s.setButtons1 v).buttons1 = v := rfl
@[simp] theorem setButtons1_buttons2 (s : State) (v : Vector Bool 8) : (s.setButtons1 v).buttons2 = s.buttons2 := rfl
@[simp] theorem setButtons1_inputs (s : State) (v : Vector Bool 8) : (s.setButtons1 v).inputs = s.inputs := rfl
@[simp] theorem setButtons1_out (s : State) (v : Vector Bool 8) : (s.setButtons1 v).out = s.out := rfl

/-! ### setButtons2 -/

@[simp] theorem setButtons2_cpu (s : State) (v : Vector Bool 8) : (s.setButtons2 v).cpu = s.cpu := rfl
@[simp] theorem setButtons2_nmiLatch (s : State) (v : Vector Bool 8) : (s.setButtons2 v).nmiLatch = s.nmiLatch := rfl
@[simp] theorem setButtons2_irqLatch (s : State) (v : Vector Bool 8) : (s.setButtons2 v).irqLatch = s.irqLatch := rfl
@[simp] theorem setButtons2_ram (s : State) (v : Vector Bool 8) : (s.setButtons2 v).ram = s.ram := rfl
@[simp] theorem setButtons2_ppu (s : State) (v : Vector Bool 8) : (s.setButtons2 v).ppu = s.ppu := rfl
@[simp] theorem setButtons2_dma (s : State) (v : Vector Bool 8) : (s.setButtons2 v).dma = s.dma := rfl
@[simp] theorem setButtons2_port1 (s : State) (v : Vector Bool 8) : (s.setButtons2 v).port1 = s.port1 := rfl
@[simp] theorem setButtons2_port2 (s : State) (v : Vector Bool 8) : (s.setButtons2 v).port2 = s.port2 := rfl
@[simp] theorem setButtons2_cart (s : State) (v : Vector Bool 8) : (s.setButtons2 v).cart = s.cart := rfl
@[simp] theorem setButtons2_buttons1 (s : State) (v : Vector Bool 8) : (s.setButtons2 v).buttons1 = s.buttons1 := rfl
@[simp] theorem setButtons2_buttons2 (s : State) (v : Vector Bool 8) : (s.setButtons2 v).buttons2 = v := rfl
@[simp] theorem setButtons2_inputs (s : State) (v : Vector Bool 8) : (s.setButtons2 v).inputs = s.inputs := rfl
@[simp] theorem setButtons2_out (s : State) (v : Vector Bool 8) : (s.setButtons2 v).out = s.out := rfl

/-! ### setInputs -/

@[simp] theorem setInputs_cpu (s : State) (v : List (List InputEvent)) : (s.setInputs v).cpu = s.cpu := rfl
@[simp] theorem setInputs_nmiLatch (s : State) (v : List (List InputEvent)) : (s.setInputs v).nmiLatch = s.nmiLatch := rfl
@[simp] theorem setInputs_irqLatch (s : State) (v : List (List InputEvent)) : (s.setInputs v).irqLatch = s.irqLatch := rfl
@[simp] theorem setInputs_ram (s : State) (v : List (List InputEvent)) : (s.setInputs v).ram = s.ram := rfl
@[simp] theorem setInputs_ppu (s : State) (v : List (List InputEvent)) : (s.setInputs v).ppu = s.ppu := rfl
@[simp] theorem setInputs_dma (s : State) (v : List (List InputEvent)) : (s.setInputs v).dma = s.dma := rfl
@[simp] theorem setInputs_port1 (s : State) (v : List (List InputEvent)) : (s.setInputs v).port1 = s.port1 := rfl
@[simp] theorem setInputs_port2 (s : State) (v : List (List InputEvent)) : (s.setInputs v).port2 = s.port2 := rfl
@[simp] theorem setInputs_cart (s : State) (v : List (List InputEvent)) : (s.setInputs v).cart = s.cart := rfl
@[simp] theorem setInputs_buttons1 (s : State) (v : List (List InputEvent)) : (s.setInputs v).buttons1 = s.buttons1 := rfl
@[simp] theorem setInputs_buttons2 (s : State) (v : List (List InputEvent)) : (s.setInputs v).buttons2 = s.buttons2 := rfl
@[simp] theorem setInputs_inputs (s : State) (v : List (List InputEvent)) : (s.setInputs v).inputs = v := rfl
@[simp] theorem setInputs_out (s : State) (v : List (List InputEvent)) : (s.setInputs v).out = s.out := rfl

/-! ### setOut -/

@[simp] theorem setOut_cpu (s : State) (v : Outputs) : (s.setOut v).cpu = s.cpu := rfl
@[simp] theorem setOut_nmiLatch (s : State) (v : Outputs) : (s.setOut v).nmiLatch = s.nmiLatch := rfl
@[simp] theorem setOut_irqLatch (s : State) (v : Outputs) : (s.setOut v).irqLatch = s.irqLatch := rfl
@[simp] theorem setOut_ram (s : State) (v : Outputs) : (s.setOut v).ram = s.ram := rfl
@[simp] theorem setOut_ppu (s : State) (v : Outputs) : (s.setOut v).ppu = s.ppu := rfl
@[simp] theorem setOut_dma (s : State) (v : Outputs) : (s.setOut v).dma = s.dma := rfl
@[simp] theorem setOut_port1 (s : State) (v : Outputs) : (s.setOut v).port1 = s.port1 := rfl
@[simp] theorem setOut_port2 (s : State) (v : Outputs) : (s.setOut v).port2 = s.port2 := rfl
@[simp] theorem setOut_cart (s : State) (v : Outputs) : (s.setOut v).cart = s.cart := rfl
@[simp] theorem setOut_buttons1 (s : State) (v : Outputs) : (s.setOut v).buttons1 = s.buttons1 := rfl
@[simp] theorem setOut_buttons2 (s : State) (v : Outputs) : (s.setOut v).buttons2 = s.buttons2 := rfl
@[simp] theorem setOut_inputs (s : State) (v : Outputs) : (s.setOut v).inputs = s.inputs := rfl
@[simp] theorem setOut_out (s : State) (v : Outputs) : (s.setOut v).out = v := rfl

/-! ### charge -/

@[simp] theorem charge_cpu (s : State) (n : Nat) : (s.charge n).cpu = s.cpu := rfl
@[simp] theorem charge_nmiLatch (s : State) (n : Nat) : (s.charge n).nmiLatch = s.nmiLatch := rfl
@[simp] theorem charge_irqLatch (s : State) (n : Nat) : (s.charge n).irqLatch = s.irqLatch := rfl
@[simp] theorem charge_ram (s : State) (n : Nat) : (s.charge n).ram = s.ram := rfl
@[simp] theorem charge_ppu (s : State) (n : Nat) : (s.charge n).ppu = s.ppu := rfl
@[simp] theorem charge_dma (s : State) (n : Nat) : (s.charge n).dma = s.dma := rfl
@[simp] theorem charge_port1 (s : State) (n : Nat) : (s.charge n).port1 = s.port1 := rfl
@[simp] theorem charge_port2 (s : State) (n : Nat) : (s.charge n).port2 = s.port2 := rfl
@[simp] theorem charge_cart (s : State) (n : Nat) : (s.charge n).cart = s.cart := rfl
@[simp] theorem charge_buttons1 (s : State) (n : Nat) : (s.charge n).buttons1 = s.buttons1 := rfl
@[simp] theorem charge_buttons2 (s : State) (n : Nat) : (s.charge n).buttons2 = s.buttons2 := rfl
@[simp] theorem charge_inputs (s : State) (n : Nat) : (s.charge n).inputs = s.inputs := rfl
@[simp] theorem charge_cycles (s : State) (n : Nat) : (s.charge n).out.cycles = s.out.cycles + n := rfl
@[simp] theorem charge_audioWrites (s : State) (n : Nat) : (s.charge n).out.audioWrites = s.out.audioWrites := rfl
@[simp] theorem charge_audioTick (s : State) (n : Nat) : (s.charge n).out.audioTick = s.out.audioTick := rfl
@[simp] theorem charge_frames (s : State) (n : Nat) : (s.charge n).out.frames = s.out.frames := rfl
@[simp] theorem charge_dmaCycles (s : State) (n : Nat) : (s.charge n).out.dmaCycles = s.out.dmaCycles := rfl

/-- Two charges are one. -/
theorem charge_charge (s : State) (m n : Nat) : (s.charge m).charge n = s.charge (m + n) := by
  simp [State.charge, State.setOut, Nat.add_assoc]

@[simp] theorem charge_zero (s : State) : s.charge 0 = s := rfl

/-! ### chargeDma -/

@[simp] theorem chargeDma_cpu (s : State) (n : Nat) : (s.chargeDma n).cpu = s.cpu := rfl
@[simp] theorem chargeDma_nmiLatch (s : State) (n : Nat) : (s.chargeDma n).nmiLatch = s.nmiLatch := rfl
@[simp] theorem chargeDma_irqLatch (s : State) (n : Nat) : (s.chargeDma n).irqLatch = s.irqLatch := rfl
@[simp] theorem chargeDma_ram (s : State) (n : Nat) : (s.chargeDma n).ram = s.ram := rfl
@[simp] theorem chargeDma_ppu (s : State) (n : Nat) : (s.chargeDma n).ppu = s.ppu := rfl
@[simp] theorem chargeDma_dma (s : State) (n : Nat) : (s.chargeDma n).dma = s.dma := rfl
@[simp] theorem chargeDma_port1 (s : State) (n : Nat) : (s.chargeDma n).port1 = s.port1 := rfl
@[simp] theorem chargeDma_port2 (s : State) (n : Nat) : (s.chargeDma n).port2 = s.port2 := rfl
@[simp] theorem chargeDma_cart (s : State) (n : Nat) : (s.chargeDma n).cart = s.cart := rfl
@[simp] theorem chargeDma_buttons1 (s : State) (n : Nat) : (s.chargeDma n).buttons1 = s.buttons1 := rfl
@[simp] theorem chargeDma_buttons2 (s : State) (n : Nat) : (s.chargeDma n).buttons2 = s.buttons2 := rfl
@[simp] theorem chargeDma_inputs (s : State) (n : Nat) : (s.chargeDma n).inputs = s.inputs := rfl
@[simp] theorem chargeDma_cycles (s : State) (n : Nat) : (s.chargeDma n).out.cycles = s.out.cycles := rfl
@[simp] theorem chargeDma_audioWrites (s : State) (n : Nat) : (s.chargeDma n).out.audioWrites = s.out.audioWrites := rfl
@[simp] theorem chargeDma_audioTick (s : State) (n : Nat) : (s.chargeDma n).out.audioTick = s.out.audioTick := rfl
@[simp] theorem chargeDma_frames (s : State) (n : Nat) : (s.chargeDma n).out.frames = s.out.frames := rfl
@[simp] theorem chargeDma_dmaCycles (s : State) (n : Nat) : (s.chargeDma n).out.dmaCycles = s.out.dmaCycles + n := rfl

/-! ### stepCycles: the sum of the two counts -/

@[simp] theorem charge_stepCycles (s : State) (n : Nat) : (s.charge n).stepCycles = s.stepCycles + n := by
  simp [State.stepCycles, Nat.add_assoc]
@[simp] theorem chargeDma_stepCycles (s : State) (n : Nat) : (s.chargeDma n).stepCycles = s.stepCycles + n := by
  simp only [State.stepCycles, chargeDma_dmaCycles, chargeDma_cycles]; omega

/-! ### setFlag, setZN -/

@[simp] theorem setFlag_a (s : State) (f : Flag) (v : Bool) : (s.setFlag f v).cpu.a = s.cpu.a := rfl
@[simp] theorem setFlag_x (s : State) (f : Flag) (v : Bool) : (s.setFlag f v).cpu.x = s.cpu.x := rfl
@[simp] theorem setFlag_y (s : State) (f : Flag) (v : Bool) : (s.setFlag f v).cpu.y = s.cpu.y := rfl
@[simp] theorem setFlag_sp (s : State) (f : Flag) (v : Bool) : (s.setFlag f v).cpu.sp = s.cpu.sp := rfl
@[simp] theorem setFlag_pc (s : State) (f : Flag) (v : Bool) : (s.setFlag f v).cpu.pc = s.cpu.pc := rfl
@[simp] theorem setFlag_nmiLatch (s : State) (f : Flag) (v : Bool) : (s.setFlag f v).nmiLatch = s.nmiLatch := rfl
@[simp] theorem setFlag_irqLatch (s : State) (f : Flag) (v : Bool) : (s.setFlag f v).irqLatch = s.irqLatch := rfl
@[simp] theorem setFlag_ram (s : State) (f : Flag) (v : Bool) : (s.setFlag f v).ram = s.ram := rfl
@[simp] theorem setFlag_ppu (s : State) (f : Flag) (v : Bool) : (s.setFlag f v).ppu = s.ppu := rfl
@[simp] theorem setFlag_dma (s : State) (f : Flag) (v : Bool) : (s.setFlag f v).dma = s.dma := rfl
@[simp] theorem setFlag_port1 (s : State) (f : Flag) (v : Bool) : (s.setFlag f v).port1 = s.port1 := rfl
@[simp] theorem setFlag_port2 (s : State) (f : Flag) (v : Bool) : (s.setFlag f v).port2 = s.port2 := rfl
@[simp] theorem setFlag_cart (s : State) (f : Flag) (v : Bool) : (s.setFlag f v).cart = s.cart := rfl
@[simp] theorem setFlag_buttons1 (s : State) (f : Flag) (v : Bool) : (s.setFlag f v).buttons1 = s.buttons1 := rfl
@[simp] theorem setFlag_buttons2 (s : State) (f : Flag) (v : Bool) : (s.setFlag f v).buttons2 = s.buttons2 := rfl
@[simp] theorem setFlag_inputs (s : State) (f : Flag) (v : Bool) : (s.setFlag f v).inputs = s.inputs := rfl
@[simp] theorem setFlag_out (s : State) (f : Flag) (v : Bool) : (s.setFlag f v).out = s.out := rfl
@[simp] theorem setZN_a (s : State) (v : Byte) : (s.setZN v).cpu.a = s.cpu.a := rfl
@[simp] theorem setZN_x (s : State) (v : Byte) : (s.setZN v).cpu.x = s.cpu.x := rfl
@[simp] theorem setZN_y (s : State) (v : Byte) : (s.setZN v).cpu.y = s.cpu.y := rfl
@[simp] theorem setZN_sp (s : State) (v : Byte) : (s.setZN v).cpu.sp = s.cpu.sp := rfl
@[simp] theorem setZN_pc (s : State) (v : Byte) : (s.setZN v).cpu.pc = s.cpu.pc := rfl
@[simp] theorem setZN_nmiLatch (s : State) (v : Byte) : (s.setZN v).nmiLatch = s.nmiLatch := rfl
@[simp] theorem setZN_irqLatch (s : State) (v : Byte) : (s.setZN v).irqLatch = s.irqLatch := rfl
@[simp] theorem setZN_ram (s : State) (v : Byte) : (s.setZN v).ram = s.ram := rfl
@[simp] theorem setZN_ppu (s : State) (v : Byte) : (s.setZN v).ppu = s.ppu := rfl
@[simp] theorem setZN_dma (s : State) (v : Byte) : (s.setZN v).dma = s.dma := rfl
@[simp] theorem setZN_port1 (s : State) (v : Byte) : (s.setZN v).port1 = s.port1 := rfl
@[simp] theorem setZN_port2 (s : State) (v : Byte) : (s.setZN v).port2 = s.port2 := rfl
@[simp] theorem setZN_cart (s : State) (v : Byte) : (s.setZN v).cart = s.cart := rfl
@[simp] theorem setZN_buttons1 (s : State) (v : Byte) : (s.setZN v).buttons1 = s.buttons1 := rfl
@[simp] theorem setZN_buttons2 (s : State) (v : Byte) : (s.setZN v).buttons2 = s.buttons2 := rfl
@[simp] theorem setZN_inputs (s : State) (v : Byte) : (s.setZN v).inputs = s.inputs := rfl
@[simp] theorem setZN_out (s : State) (v : Byte) : (s.setZN v).out = s.out := rfl

/-! ### A flag is read through P only -/

@[simp] theorem setA_flag (s : State) (v : Byte) (f : Flag) : (s.setA v).flag f = s.flag f := rfl
@[simp] theorem setX_flag (s : State) (v : Byte) (f : Flag) : (s.setX v).flag f = s.flag f := rfl
@[simp] theorem setY_flag (s : State) (v : Byte) (f : Flag) : (s.setY v).flag f = s.flag f := rfl
@[simp] theorem setSp_flag (s : State) (v : Byte) (f : Flag) : (s.setSp v).flag f = s.flag f := rfl
@[simp] theorem setPc_flag (s : State) (v : Addr) (f : Flag) : (s.setPc v).flag f = s.flag f := rfl
@[simp] theorem setNmi_flag (s : State) (v : Bool) (f : Flag) : (s.setNmi v).flag f = s.flag f := rfl
@[simp] theorem setIrq_flag (s : State) (v : Bool) (f : Flag) : (s.setIrq v).flag f = s.flag f := rfl
@[simp] theorem setRam_flag (s : State) (v : Memory) (f : Flag) : (s.setRam v).flag f = s.flag f := rfl
@[simp] theorem setPpu_flag (s : State) (v : Ppu) (f : Flag) : (s.setPpu v).flag f = s.flag f := rfl
@[simp] theorem setDma_flag (s : State) (v : Dma) (f : Flag) : (s.setDma v).flag f = s.flag f := rfl
@[simp] theorem setPort1_flag (s : State) (v : Controller) (f : Flag) : (s.setPort1 v).flag f = s.flag f := rfl
@[simp] theorem setPort2_flag (s : State) (v : Controller) (f : Flag) : (s.setPort2 v).flag f = s.flag f := rfl
@[simp] theorem setButtons1_flag (s : State) (v : Vector Bool 8) (f : Flag) : (s.setButtons1 v).flag f = s.flag f := rfl
@[simp] theorem setButtons2_flag (s : State) (v : Vector Bool 8) (f : Flag) : (s.setButtons2 v).flag f = s.flag f := rfl
@[simp] theorem setInputs_flag (s : State) (v : List (List InputEvent)) (f : Flag) : (s.setInputs v).flag f = s.flag f := rfl
@[simp] theorem setOut_flag (s : State) (v : Outputs) (f : Flag) : (s.setOut v).flag f = s.flag f := rfl
@[simp] theorem charge_flag (s : State) (n : Nat) (f : Flag) : (s.charge n).flag f = s.flag f := rfl
@[simp] theorem chargeDma_flag (s : State) (n : Nat) (f : Flag) : (s.chargeDma n).flag f = s.flag f := rfl

end Sys2Proof.Machine.State
end

