-- ==== Sys2Proof/Laws/Ppu.lean ====
section
/-! SUPPORT. What the picture unit's operations can do: the bus and the registers keep the memories canonical and in
range; a completed scanline changes its own counters, flags, frame buffers, the NMI latch and the frame events only. -/

namespace Sys2Proof.Machine

theorem palWriteIndex_lt {i : Nat} (h : i < 0x20) : palWriteIndex i < Config.paletteSize := by
  unfold palWriteIndex Config.paletteSize; split <;> omega

theorem palReadIndex_lt {i : Nat} (h : i < 0x20) : palReadIndex i < Config.paletteSize := by
  unfold palReadIndex Config.paletteSize; split
  · omega
  · split <;> omega

theorem busWritePpu_memoriesOk {p : Ppu} (h : p.MemoriesOk) (a : Addr) (v : Byte) :
    (busWritePpu a v p).MemoriesOk := by
  unfold busWritePpu
  have hlt : a.toNat % 0x4000 < 0x4000 := Nat.mod_lt _ (by decide)
  simp only
  split
  · exact { h with
      patWf := Memory.wf_write h.patWf _ _
      patWithin := Memory.within_write h.patWithin (by assumption) _ }
  · split
    · exact { h with
        vramWf := Memory.wf_write h.vramWf _ _
        vramWithin := Memory.within_write h.vramWithin (by simp only [Config.vramSize]; omega) _ }
    · split
      · exact { h with
          vramWf := Memory.wf_write h.vramWf _ _
          vramWithin := Memory.within_write h.vramWithin (by simp only [Config.vramSize]; omega) _ }
      · exact { h with
          palWf := Memory.wf_write h.palWf _ _
          palWithin := Memory.within_write h.palWithin (palWriteIndex_lt (Nat.mod_lt _ (by decide))) _ }

theorem advance_memoriesOk {p : Ppu} (h : p.MemoriesOk) : p.advance.MemoriesOk :=
  { h with }

theorem ppuRegWrite_memoriesOk {p : Ppu} (h : p.MemoriesOk) (k : Nat) (v : Byte) :
    (ppuRegWrite k v p).MemoriesOk := by
  unfold ppuRegWrite
  split
  · exact { h with }
  · exact { h with }
  · exact h
  · exact { h with }
  · exact { h with
      oamWf := Memory.wf_write h.oamWf _ _
      oamWithin := Memory.within_write h.oamWithin (by simpa [Config.oamSize] using p.oamAddr.isLt) _ }
  · unfold writeScroll; split <;> exact { h with }
  · unfold writeVramAddr; split <;> exact { h with }
  · exact advance_memoriesOk (busWritePpu_memoriesOk h _ _)

theorem ppuRegRead_memoriesOk {p : Ppu} (h : p.MemoriesOk) (k : Nat) : (ppuRegRead k p).2.MemoriesOk := by
  unfold ppuRegRead
  split
  · exact { h with }
  · exact h
  · unfold readVramData; simp only; split
    · exact advance_memoriesOk h
    · exact advance_memoriesOk { h with }
  · exact h

/-- The counters and frame buffers, which no register access changes. -/
structure Ppu.SameRaster (p q : Ppu) : Prop where
  line       : q.line = p.line
  dot        : q.dot = p.dot
  background : q.background = p.background
  sprites    : q.sprites = p.sprites

/-- A PPU bus write changes pattern memory, video memory or the palette at most. -/
theorem busWritePpu_eq (a : Addr) (v : Byte) (p : Ppu) :
    busWritePpu a v p = { p with
      pat := (busWritePpu a v p).pat, vram := (busWritePpu a v p).vram, pal := (busWritePpu a v p).pal } := by
  unfold busWritePpu
  simp only
  repeat' split
  all_goals rfl

theorem ppuRegWrite_sameRaster (k : Nat) (v : Byte) (p : Ppu) : p.SameRaster (ppuRegWrite k v p) := by
  unfold ppuRegWrite
  split
  · exact ⟨rfl, rfl, rfl, rfl⟩
  · exact ⟨rfl, rfl, rfl, rfl⟩
  · exact ⟨rfl, rfl, rfl, rfl⟩
  · exact ⟨rfl, rfl, rfl, rfl⟩
  · exact ⟨rfl, rfl, rfl, rfl⟩
  · unfold writeScroll; split <;> exact ⟨rfl, rfl, rfl, rfl⟩
  · unfold writeVramAddr; split <;> exact ⟨rfl, rfl, rfl, rfl⟩
  · unfold writeVramData Ppu.advance
    rw [busWritePpu_eq]
    exact ⟨rfl, rfl, rfl, rfl⟩

theorem ppuRegRead_sameRaster (k : Nat) (p : Ppu) : p.SameRaster (ppuRegRead k p).2 := by
  unfold ppuRegRead
  split
  · exact ⟨rfl, rfl, rfl, rfl⟩
  · exact ⟨rfl, rfl, rfl, rfl⟩
  · unfold readVramData; simp only; split <;> exact ⟨rfl, rfl, rfl, rfl⟩
  · exact ⟨rfl, rfl, rfl, rfl⟩

/-! ### The scanline machine -/

/-- What a scanline's completion leaves alone. -/
structure RasterFrame (s t : State) : Prop where
  cpu          : t.cpu = s.cpu
  irqLatch     : t.irqLatch = s.irqLatch
  ram          : t.ram = s.ram
  dma          : t.dma = s.dma
  port1        : t.port1 = s.port1
  port2        : t.port2 = s.port2
  cart         : t.cart = s.cart
  buttons1     : t.buttons1 = s.buttons1
  buttons2     : t.buttons2 = s.buttons2
  inputs       : t.inputs = s.inputs
  cycles       : t.out.cycles = s.out.cycles
  audioWrites  : t.out.audioWrites = s.out.audioWrites
  dmaCycles    : t.out.dmaCycles = s.out.dmaCycles
  audioTick    : t.out.audioTick = s.out.audioTick
  pat          : t.ppu.pat = s.ppu.pat
  vram         : t.ppu.vram = s.ppu.vram
  oam          : t.ppu.oam = s.ppu.oam
  pal          : t.ppu.pal = s.ppu.pal
  ctrl         : t.ppu.ctrl = s.ppu.ctrl
  mask         : t.ppu.mask = s.ppu.mask
  oamAddr      : t.ppu.oamAddr = s.ppu.oamAddr
  scrollX      : t.ppu.scrollX = s.ppu.scrollX
  scrollY      : t.ppu.scrollY = s.ppu.scrollY
  scrollToggle : t.ppu.scrollToggle = s.ppu.scrollToggle
  vramAddr     : t.ppu.vramAddr = s.ppu.vramAddr
  addrToggle   : t.ppu.addrToggle = s.ppu.addrToggle
  readBuf      : t.ppu.readBuf = s.ppu.readBuf

theorem RasterFrame.refl (s : State) : RasterFrame s s := by constructor <;> rfl

theorem RasterFrame.trans {s t u : State} (h : RasterFrame s t) (g : RasterFrame t u) : RasterFrame s u := by
  constructor
  all_goals first
    | exact g.cpu.trans h.cpu | exact g.irqLatch.trans h.irqLatch | exact g.ram.trans h.ram | exact g.dma.trans h.dma
    | exact g.port1.trans h.port1 | exact g.port2.trans h.port2 | exact g.cart.trans h.cart
    | exact g.buttons1.trans h.buttons1 | exact g.buttons2.trans h.buttons2 | exact g.inputs.trans h.inputs
    | exact g.cycles.trans h.cycles | exact g.dmaCycles.trans h.dmaCycles
    | exact g.audioWrites.trans h.audioWrites | exact g.audioTick.trans h.audioTick
    | exact g.pat.trans h.pat | exact g.vram.trans h.vram | exact g.oam.trans h.oam | exact g.pal.trans h.pal
    | exact g.ctrl.trans h.ctrl | exact g.mask.trans h.mask | exact g.oamAddr.trans h.oamAddr
    | exact g.scrollX.trans h.scrollX | exact g.scrollY.trans h.scrollY | exact g.scrollToggle.trans h.scrollToggle
    | exact g.vramAddr.trans h.vramAddr | exact g.addrToggle.trans h.addrToggle | exact g.readBuf.trans h.readBuf

/-- The PPU after the scanline machine ran: six elements may be new, the rest are the old ones. -/
theorem RasterFrame.ppu_eq {s t : State} (h : RasterFrame s t) :
    t.ppu = { s.ppu with
      line := t.ppu.line, dot := t.ppu.dot, sprite0Hit := t.ppu.sprite0Hit, vblank := t.ppu.vblank
      background := t.ppu.background, sprites := t.ppu.sprites } := by
  simp only [← h.pat, ← h.vram, ← h.oam, ← h.pal, ← h.ctrl, ← h.mask, ← h.oamAddr, ← h.scrollX, ← h.scrollY,
    ← h.scrollToggle, ← h.vramAddr, ← h.addrToggle, ← h.readBuf]

/-- The machine after the scanline machine ran: the PPU, the NMI latch and the frame events may be new. -/
theorem RasterFrame.state_eq {s t : State} (h : RasterFrame s t) :
    t = ((s.setPpu t.ppu).setNmi t.nmiLatch).setOut { s.out with frames := t.out.frames } := by
  simp only [State.setPpu, State.setNmi, State.setOut, ← h.cpu, ← h.irqLatch, ← h.ram, ← h.dma, ← h.port1, ← h.port2,
    ← h.cart, ← h.buttons1, ← h.buttons2, ← h.inputs, ← h.cycles, ← h.dmaCycles, ← h.audioWrites, ← h.audioTick]

theorem spriteZeroTest_frame (n : Nat) (s : State) : RasterFrame s (spriteZeroTest n s) := by
  unfold spriteZeroTest; split <;> constructor <;> rfl

theorem buildBackgroundRow_frame (s : State) : RasterFrame s (buildBackgroundRow s) := by constructor <;> rfl

theorem vblankStart_frame (s : State) : RasterFrame s (vblankStart s) := by
  unfold vblankStart; simp only; split <;> constructor <;> rfl

theorem frameEnd_frame (s : State) : RasterFrame s (frameEnd s) := by constructor <;> rfl

/-- A completed scanline changes nothing outside its own part of the state. -/
theorem lineComplete_frame (s : State) : RasterFrame s (lineComplete s) := by
  unfold lineComplete
  have h0 : RasterFrame s (s.setPpu { s.ppu with dot := s.ppu.dot - Config.dotsPerLine, line := s.ppu.line + 1 }) := by
    constructor <;> rfl
  have h1 := h0.trans (spriteZeroTest_frame s.ppu.line _)
  simp only
  generalize spriteZeroTest s.ppu.line _ = s1 at h1 ⊢
  have h2 : RasterFrame s (if s1.ppu.line ≤ 240 ∧ s1.ppu.line % 8 = 0 ∧ s1.ppu.scrollY.toNat ≤ 240
      then buildBackgroundRow s1 else s1) := by
    split
    · exact h1.trans (buildBackgroundRow_frame s1)
    · exact h1
  generalize (if s1.ppu.line ≤ 240 ∧ s1.ppu.line % 8 = 0 ∧ s1.ppu.scrollY.toNat ≤ 240
      then buildBackgroundRow s1 else s1) = s2 at h2 ⊢
  have h3 : RasterFrame s (if s2.ppu.line = 241 then vblankStart s2 else s2) := by
    split
    · exact h2.trans (vblankStart_frame s2)
    · exact h2
  generalize (if s2.ppu.line = 241 then vblankStart s2 else s2) = s3 at h3 ⊢
  split
  · exact h3.trans (frameEnd_frame s3)
  · exact h3

theorem linesComplete_frame : ∀ (k : Nat) (s : State), RasterFrame s (linesComplete k s)
  | 0, s => RasterFrame.refl s
  | k + 1, s => (lineComplete_frame s).trans (linesComplete_frame k (lineComplete s))

/-- Advancing the PPU changes nothing outside the scanline machine's own part of the state. -/
theorem ppuRun_frame (n : Nat) (s : State) : RasterFrame s (ppuRun n s) := by
  unfold ppuRun
  have h0 : RasterFrame s (s.setPpu { s.ppu with dot := s.ppu.dot + n }) := by constructor <;> rfl
  exact h0.trans (linesComplete_frame _ _)

/-- What the scanline machine keeps of the PPU's memories. -/
theorem RasterFrame.memoriesOk {s t : State} (h : RasterFrame s t) (g : s.ppu.MemoriesOk) : t.ppu.MemoriesOk := by
  constructor
  all_goals first
    | (rw [h.pat]; first | exact g.patWf | exact g.patWithin)
    | (rw [h.vram]; first | exact g.vramWf | exact g.vramWithin)
    | (rw [h.oam]; first | exact g.oamWf | exact g.oamWithin)
    | (rw [h.pal]; first | exact g.palWf | exact g.palWithin)

end Sys2Proof.Machine
end

