-- ==== Sys2Proof/Laws/Ops.lean ====
section
/-! SUPPORT. What the CPU bus, the stack and the entry to a handler can do, said once. -/

namespace Sys2Proof.Machine

/-! ### Routing -/

theorem route_of_ram {a : Addr} (h : a.toNat < 0x2000) : route a = .ram (a.toNat % 0x800) := by
  unfold route
  simp only
  by_cases h1 : a.toNat < 0x800
  · rw [if_pos h1, Nat.mod_eq_of_lt h1]
  · rw [if_neg h1, if_pos h]

theorem route_of_rom {a : Addr} (h : 0x8000 ≤ a.toNat) : route a = .rom := by
  have h1 : ¬ a.toNat < 0x800 := by omega
  have h2 : ¬ a.toNat < 0x2000 := by omega
  have h3 : ¬ a.toNat < 0x4000 := by omega
  have h4 : ¬ a.toNat = 0x4014 := by omega
  have h5 : ¬ a.toNat = 0x4016 := by omega
  have h6 : ¬ a.toNat = 0x4017 := by omega
  have h7 : ¬ a.toNat < 0x4020 := by omega
  simp only [route, if_neg h1, if_neg h2, if_neg h3, if_neg h4, if_neg h5, if_neg h6, if_neg h7, if_pos h]

/-- Every index of RAM that the bus reaches is in its range (R65). -/
theorem route_ram_lt {a : Addr} {i : Nat} (h : route a = .ram i) : i < 0x800 := by
  unfold route at h
  simp only at h
  repeat' split at h
  all_goals first
    | (injection h with h; omega)
    | cases h

/-! ### Reading -/

/-- A bus read changes the PPU or a controller port at most. -/
theorem busRead_post (a : Addr) (s : State) :
    ∃ p c1 c2, (busRead a s).2 = ((s.setPpu p).setPort1 c1).setPort2 c2 := by
  unfold busRead
  cases route a with
  | ppuReg k => exact ⟨(ppuRegRead k s.ppu).2, s.port1, s.port2, rfl⟩
  | port p =>
    cases p with
    | one => exact ⟨s.ppu, (controllerRead s.port1).2, s.port2, rfl⟩
    | two => exact ⟨s.ppu, s.port1, (controllerRead s.port2).2, rfl⟩
  | _ => exact ⟨s.ppu, s.port1, s.port2, rfl⟩

@[simp] theorem busRead_cpu (a : Addr) (s : State) : (busRead a s).2.cpu = s.cpu := by
  obtain ⟨p, c1, c2, h⟩ := busRead_post a s; rw [h]; rfl
@[simp] theorem busRead_nmiLatch (a : Addr) (s : State) : (busRead a s).2.nmiLatch = s.nmiLatch := by
  obtain ⟨p, c1, c2, h⟩ := busRead_post a s; rw [h]; rfl
@[simp] theorem busRead_irqLatch (a : Addr) (s : State) : (busRead a s).2.irqLatch = s.irqLatch := by
  obtain ⟨p, c1, c2, h⟩ := busRead_post a s; rw [h]; rfl
@[simp] theorem busRead_ram (a : Addr) (s : State) : (busRead a s).2.ram = s.ram := by
  obtain ⟨p, c1, c2, h⟩ := busRead_post a s; rw [h]; rfl
@[simp] theorem busRead_dma (a : Addr) (s : State) : (busRead a s).2.dma = s.dma := by
  obtain ⟨p, c1, c2, h⟩ := busRead_post a s; rw [h]; rfl
@[simp] theorem busRead_cart (a : Addr) (s : State) : (busRead a s).2.cart = s.cart := by
  obtain ⟨p, c1, c2, h⟩ := busRead_post a s; rw [h]; rfl
@[simp] theorem busRead_buttons1 (a : Addr) (s : State) : (busRead a s).2.buttons1 = s.buttons1 := by
  obtain ⟨p, c1, c2, h⟩ := busRead_post a s; rw [h]; rfl
@[simp] theorem busRead_buttons2 (a : Addr) (s : State) : (busRead a s).2.buttons2 = s.buttons2 := by
  obtain ⟨p, c1, c2, h⟩ := busRead_post a s; rw [h]; rfl
@[simp] theorem busRead_inputs (a : Addr) (s : State) : (busRead a s).2.inputs = s.inputs := by
  obtain ⟨p, c1, c2, h⟩ := busRead_post a s; rw [h]; rfl
@[simp] theorem busRead_out (a : Addr) (s : State) : (busRead a s).2.out = s.out := by
  obtain ⟨p, c1, c2, h⟩ := busRead_post a s; rw [h]; rfl
@[simp] theorem busRead_flag (a : Addr) (s : State) (f : Flag) : (busRead a s).2.flag f = s.flag f := by
  unfold State.flag; rw [busRead_cpu]

/-- Below 0x2000 a read is of RAM and has no effect (R61 rows 1 and 2). -/
theorem busRead_of_ram {a : Addr} (h : a.toNat < 0x2000) (s : State) : busRead a s = (s.ram.read (a.toNat % 0x800), s) := by
  rw [busRead, route_of_ram h]

/-- From 0x8000 on a read is of program ROM and has no effect (R61 rows 8 and 9). -/
theorem busRead_of_rom {a : Addr} (h : 0x8000 ≤ a.toNat) (s : State) : busRead a s = (prgByte s.cart a, s) := by
  rw [busRead, route_of_rom h]

theorem busRead_zext (z : Byte) (s : State) : busRead (zext z) s = (s.ram.read z.toNat, s) := by
  have hz := z.isLt
  have h : (zext z).toNat = z.toNat := zext_toNat z
  rw [busRead_of_ram (by omega), h, Nat.mod_eq_of_lt (by omega)]

theorem stackAddr_toNat (sp : Byte) : (stackAddr sp).toNat = 0x100 + sp.toNat := by
  rw [stackAddr, word_toNat]; rfl

theorem busRead_stackAddr (sp : Byte) (s : State) : busRead (stackAddr sp) s = (s.ram.read (0x100 + sp.toNat), s) := by
  have hz := sp.isLt
  have h := stackAddr_toNat sp
  rw [busRead_of_ram (by omega), h, Nat.mod_eq_of_lt (by omega)]

/-! ### Writing -/

/-- What a bus write leaves alone: it changes RAM, the PPU, the DMA Unit, a controller port or the audio events at most. -/
structure WriteFrame (s t : State) : Prop where
  cpu       : t.cpu = s.cpu
  nmiLatch  : t.nmiLatch = s.nmiLatch
  irqLatch  : t.irqLatch = s.irqLatch
  cart      : t.cart = s.cart
  buttons1  : t.buttons1 = s.buttons1
  buttons2  : t.buttons2 = s.buttons2
  inputs    : t.inputs = s.inputs
  cycles    : t.out.cycles = s.out.cycles
  dmaCycles : t.out.dmaCycles = s.out.dmaCycles
  audioTick : t.out.audioTick = s.out.audioTick
  frames    : t.out.frames = s.out.frames

theorem busWrite_frame (a : Addr) (v : Byte) (s : State) : WriteFrame s (busWrite a v s) := by
  unfold busWrite
  cases route a with
  | port p => cases p <;> constructor <;> rfl
  | _ => constructor <;> rfl

@[simp] theorem busWrite_cpu (a : Addr) (v : Byte) (s : State) : (busWrite a v s).cpu = s.cpu := (busWrite_frame a v s).cpu
@[simp] theorem busWrite_nmiLatch (a : Addr) (v : Byte) (s : State) : (busWrite a v s).nmiLatch = s.nmiLatch := (busWrite_frame a v s).nmiLatch
@[simp] theorem busWrite_irqLatch (a : Addr) (v : Byte) (s : State) : (busWrite a v s).irqLatch = s.irqLatch := (busWrite_frame a v s).irqLatch
@[simp] theorem busWrite_cart (a : Addr) (v : Byte) (s : State) : (busWrite a v s).cart = s.cart := (busWrite_frame a v s).cart
@[simp] theorem busWrite_buttons1 (a : Addr) (v : Byte) (s : State) : (busWrite a v s).buttons1 = s.buttons1 := (busWrite_frame a v s).buttons1
@[simp] theorem busWrite_buttons2 (a : Addr) (v : Byte) (s : State) : (busWrite a v s).buttons2 = s.buttons2 := (busWrite_frame a v s).buttons2
@[simp] theorem busWrite_inputs (a : Addr) (v : Byte) (s : State) : (busWrite a v s).inputs = s.inputs := (busWrite_frame a v s).inputs
@[simp] theorem busWrite_cycles (a : Addr) (v : Byte) (s : State) : (busWrite a v s).out.cycles = s.out.cycles := (busWrite_frame a v s).cycles
@[simp] theorem busWrite_dmaCycles (a : Addr) (v : Byte) (s : State) : (busWrite a v s).out.dmaCycles = s.out.dmaCycles := (busWrite_frame a v s).dmaCycles
@[simp] theorem busWrite_audioTick (a : Addr) (v : Byte) (s : State) : (busWrite a v s).out.audioTick = s.out.audioTick := (busWrite_frame a v s).audioTick
@[simp] theorem busWrite_frames (a : Addr) (v : Byte) (s : State) : (busWrite a v s).out.frames = s.out.frames := (busWrite_frame a v s).frames
@[simp] theorem busWrite_flag (a : Addr) (v : Byte) (s : State) (f : Flag) : (busWrite a v s).flag f = s.flag f := by
  unfold State.flag; rw [busWrite_cpu]

/-- Below 0x2000 a write is to one byte of RAM (R62 rows 1 and 2). -/
theorem busWrite_of_ram {a : Addr} (h : a.toNat < 0x2000) (v : Byte) (s : State) :
    busWrite a v s = s.setRam (s.ram.write (a.toNat % 0x800) v) := by
  rw [busWrite, route_of_ram h]

theorem busWrite_stackAddr (sp b : Byte) (s : State) :
    busWrite (stackAddr sp) b s = s.setRam (s.ram.write (0x100 + sp.toNat) b) := by
  have hz := sp.isLt
  have h := stackAddr_toNat sp
  rw [busWrite_of_ram (by omega), h, Nat.mod_eq_of_lt (by omega)]

/-! ### The stack (R77) -/

/-- A push is one byte of RAM and SP. -/
theorem push_eq (b : Byte) (s : State) :
    push b s = (s.setRam (s.ram.write (0x100 + s.cpu.sp.toNat) b)).setSp (s.cpu.sp - 1#8) := by
  unfold push; rw [busWrite_stackAddr]

/-- A 16-bit push is two bytes of RAM, the high one first, and SP. -/
theorem push16_eq (w : Addr) (s : State) :
    push16 w s = (s.setRam ((s.ram.write (0x100 + s.cpu.sp.toNat) (hiByte w)).write
      (0x100 + (s.cpu.sp - 1#8).toNat) (loByte w))).setSp (s.cpu.sp - 1#8 - 1#8) := by
  unfold push16; rw [push_eq, push_eq]; rfl

/-- A pull is one byte of RAM and SP. -/
theorem pull_eq (s : State) :
    pull s = (s.ram.read (0x100 + (s.cpu.sp + 1#8).toNat), s.setSp (s.cpu.sp + 1#8)) := by
  unfold pull; simp only; rw [busRead_stackAddr]; rfl

/-- A 16-bit pull takes the low byte first. -/
theorem pull16_eq (s : State) :
    pull16 s = (word (s.ram.read (0x100 + (s.cpu.sp + 1#8 + 1#8).toNat)) (s.ram.read (0x100 + (s.cpu.sp + 1#8).toNat)),
      s.setSp (s.cpu.sp + 1#8 + 1#8)) := by
  unfold pull16; simp only; rw [pull_eq, pull_eq]; rfl

/-! ### The vectors lie in program ROM (R63) -/

/-- The 16-bit value at a vector. -/
def vectorAt (cart : Cartridge) (v : Addr) : Addr := word (prgByte cart (addrPlus v 1)) (prgByte cart v)

theorem read16_of_rom {a : Addr} (h : 0x8000 ≤ a.toNat) (h' : a.toNat < 0xFFFF) (s : State) :
    read16 a s = (vectorAt s.cart a, s) := by
  have h1 : (addrPlus a 1).toNat = a.toNat + 1 := by rw [addrPlus_toNat]; omega
  unfold read16
  simp only
  rw [busRead_of_rom h]
  simp only
  rw [busRead_of_rom (by omega)]
  rfl

/-! ### Entering a handler and returning (R302, R243, R244) -/

/-- What entering a handler does: three bytes of RAM, SP, P.I and PC. -/
theorem enterHandler_eq {vector : Addr} (h : 0x8000 ≤ vector.toNat) (h' : vector.toNat < 0xFFFF) (ret : Addr)
    (status : Byte) (s : State) :
    enterHandler vector ret status s =
      ((((s.setRam (((s.ram.write (0x100 + s.cpu.sp.toNat) (hiByte ret)).write
        (0x100 + (s.cpu.sp - 1#8).toNat) (loByte ret)).write
        (0x100 + (s.cpu.sp - 1#8 - 1#8).toNat) status)).setSp (s.cpu.sp - 1#8 - 1#8 - 1#8)).setFlag .i true).setPc
        (vectorAt s.cart vector)) := by
  unfold enterHandler
  simp only
  rw [read16_of_rom h h', push_eq, push16_eq]
  rfl

/-- What returning from a handler does: SP, P and PC. -/
theorem returnFromHandler_eq (s : State) :
    returnFromHandler s =
      ((s.setP (loadedStatus (s.ram.read (0x100 + (s.cpu.sp + 1#8).toNat)))).setSp (s.cpu.sp + 1#8 + 1#8 + 1#8)).setPc
        (word (s.ram.read (0x100 + (s.cpu.sp + 1#8 + 1#8 + 1#8).toNat))
          (s.ram.read (0x100 + (s.cpu.sp + 1#8 + 1#8).toNat))) := by
  unfold returnFromHandler
  simp only
  rw [pull_eq, pull16_eq]
  rfl

end Sys2Proof.Machine
end

