-- ==== Sys2Proof/Laws/Operands.lean ====
section
/-! SUPPORT. The operand forms and the access classes, each said once: pointers are read from the zero page with no effect,
and an instruction's next state is named by its operand, its new byte and its registers. -/

namespace Sys2Proof.Machine

/-- A zero-page pointer is two bytes of RAM, read with no effect (R141, R142). -/
theorem readPointer_eq (p : Byte) (s : State) :
    readPointer p s = (word (s.ram.read (p + 1#8).toNat) (s.ram.read p.toNat), s) := by
  unfold readPointer
  simp only
  rw [busRead_zext]
  simp only
  rw [busRead_zext]

/-- Resolving an operand has no effect (R132 to R142). -/
@[simp] theorem resolve_post (m : Mem) (s : State) : (resolve m s).post = s := by
  cases m <;> simp [resolve, readPointer_eq]

/-- A memory operand's value and effect are those of one bus read at its effective address (R146). -/
theorem readMem_value (m : Mem) (s : State) : (readMem m s).value = (busRead (resolve m s).ea s).1 := by
  simp [readMem]

theorem readMem_post (m : Mem) (s : State) : (readMem m s).post = (busRead (resolve m s).ea s).2 := by
  simp [readMem]

theorem readMem_extra (m : Mem) (s : State) : (readMem m s).extra = (resolve m s).extra := rfl

theorem readMemClass_eq (base : Nat) (m : Mem) (use : Byte → State → State) (s : State) :
    readMemClass base m use s =
      (use (busRead (resolve m s).ea s).1 (busRead (resolve m s).ea s).2).charge (base + (resolve m s).extra) := by
  simp [readMemClass, readMem_value, readMem_post, readMem_extra]

theorem readClass_imm (base : Nat) (v : Byte) (use : Byte → State → State) (s : State) :
    readClass base (.imm v) use s = (use v s).charge base := rfl

theorem readClass_mem (base : Nat) (m : Mem) (use : Byte → State → State) (s : State) :
    readClass base (.mem m) use s = readMemClass base m use s := rfl

theorem writeClass_eq (base : Nat) (m : Mem) (v : Byte) (s : State) :
    writeClass base m v s = (busWrite (resolve m s).ea v s).charge (base + (resolve m s).extra) := by
  simp [writeClass]

theorem rmwClass_eq (base : Nat) (m : Mem) (new : Bool → Byte → Byte) (after : Byte → Byte → State → State) (s : State) :
    rmwClass base m new after s =
      (after (busRead (resolve m s).ea s).1 (new (s.flag .c) (busRead (resolve m s).ea s).1)
        (busWrite (resolve m s).ea (new (s.flag .c) (busRead (resolve m s).ea s).1) (busRead (resolve m s).ea s).2)).charge
        (base + (resolve m s).extra) := by
  simp [rmwClass]

/-- An extra cycle is one cycle at most (R144). -/
theorem pageCross_le (a b : Addr) : pageCross a b ≤ 1 := by unfold pageCross; split <;> omega

theorem resolve_extra_le (m : Mem) (s : State) : (resolve m s).extra ≤ 1 := by
  cases m <;> first | exact Nat.zero_le 1 | exact pageCross_le _ _

end Sys2Proof.Machine
end

