-- ==== Sys2Proof/Laws/Exec.lean ====
section
/-! SUPPORT. What an instruction can do, said once for all of them: a bus access, a stack access or a change of the CPU
registers, none of which reaches the latches, the parameters, the inputs or the scanline machine, and each of which keeps the
memories canonical and in range and the bits R and B of P. -/

namespace Sys2Proof.Machine

/-- What every instruction leaves alone or keeps. -/
structure CpuFrame (s t : State) : Prop where
  nmiLatch  : t.nmiLatch = s.nmiLatch
  irqLatch  : t.irqLatch = s.irqLatch
  cart      : t.cart = s.cart
  buttons1  : t.buttons1 = s.buttons1
  buttons2  : t.buttons2 = s.buttons2
  inputs    : t.inputs = s.inputs
  dmaCycles : t.out.dmaCycles = s.out.dmaCycles
  audioTick : t.out.audioTick = s.out.audioTick
  frames    : t.out.frames = s.out.frames
  raster    : s.ppu.SameRaster t.ppu
  memories  : s.ppu.MemoriesOk → t.ppu.MemoriesOk
  ramWf     : s.ram.wf = true → t.ram.wf = true
  ramWithin : s.ram.within Config.ramSize = true → t.ram.within Config.ramSize = true
  reserved  : s.flag .r = true → t.flag .r = true
  breakFlag : s.flag .b = false → t.flag .b = false

theorem Ppu.SameRaster.trans {p q r : Ppu} (h : p.SameRaster q) (g : q.SameRaster r) : p.SameRaster r :=
  ⟨g.line.trans h.line, g.dot.trans h.dot, g.background.trans h.background, g.sprites.trans h.sprites⟩

theorem CpuFrame.refl (s : State) : CpuFrame s s :=
  ⟨rfl, rfl, rfl, rfl, rfl, rfl, rfl, rfl, rfl, ⟨rfl, rfl, rfl, rfl⟩, id, id, id, id, id⟩

theorem CpuFrame.trans {s t u : State} (h : CpuFrame s t) (g : CpuFrame t u) : CpuFrame s u where
  nmiLatch  := g.nmiLatch.trans h.nmiLatch
  irqLatch  := g.irqLatch.trans h.irqLatch
  cart      := g.cart.trans h.cart
  buttons1  := g.buttons1.trans h.buttons1
  buttons2  := g.buttons2.trans h.buttons2
  inputs    := g.inputs.trans h.inputs
  dmaCycles := g.dmaCycles.trans h.dmaCycles
  audioTick := g.audioTick.trans h.audioTick
  frames    := g.frames.trans h.frames
  raster    := h.raster.trans g.raster
  memories  := fun x => g.memories (h.memories x)
  ramWf     := fun x => g.ramWf (h.ramWf x)
  ramWithin := fun x => g.ramWithin (h.ramWithin x)
  reserved  := fun x => g.reserved (h.reserved x)
  breakFlag := fun x => g.breakFlag (h.breakFlag x)

/-! ### The operations -/

theorem busRead_memoriesOk {s : State} (h : s.ppu.MemoriesOk) (a : Addr) : (busRead a s).2.ppu.MemoriesOk := by
  unfold busRead
  cases route a with
  | ppuReg k => exact ppuRegRead_memoriesOk h k
  | port p => cases p <;> exact h
  | _ => exact h

theorem busRead_sameRaster (a : Addr) (s : State) : s.ppu.SameRaster (busRead a s).2.ppu := by
  unfold busRead
  cases route a with
  | ppuReg k => exact ppuRegRead_sameRaster k s.ppu
  | port p => cases p <;> exact ⟨rfl, rfl, rfl, rfl⟩
  | _ => exact ⟨rfl, rfl, rfl, rfl⟩

theorem busRead_cpuFrame (a : Addr) (s : State) : CpuFrame s (busRead a s).2 where
  nmiLatch  := busRead_nmiLatch a s
  irqLatch  := busRead_irqLatch a s
  cart      := busRead_cart a s
  buttons1  := busRead_buttons1 a s
  buttons2  := busRead_buttons2 a s
  inputs    := busRead_inputs a s
  dmaCycles := by rw [busRead_out]
  audioTick := by rw [busRead_out]
  frames    := by rw [busRead_out]
  raster    := busRead_sameRaster a s
  memories  := fun h => busRead_memoriesOk h a
  ramWf     := by rw [busRead_ram]; exact id
  ramWithin := by rw [busRead_ram]; exact id
  reserved  := by rw [busRead_flag]; exact id
  breakFlag := by rw [busRead_flag]; exact id

theorem busWrite_memoriesOk {s : State} (h : s.ppu.MemoriesOk) (a : Addr) (v : Byte) : (busWrite a v s).ppu.MemoriesOk := by
  unfold busWrite
  cases route a with
  | ppuReg k => exact ppuRegWrite_memoriesOk h k v
  | port p => cases p <;> exact h
  | _ => exact h

theorem busWrite_sameRaster (a : Addr) (v : Byte) (s : State) : s.ppu.SameRaster (busWrite a v s).ppu := by
  unfold busWrite
  cases route a with
  | ppuReg k => exact ppuRegWrite_sameRaster k v s.ppu
  | port p => cases p <;> exact ⟨rfl, rfl, rfl, rfl⟩
  | _ => exact ⟨rfl, rfl, rfl, rfl⟩

theorem busWrite_ramWf {s : State} (h : s.ram.wf = true) (a : Addr) (v : Byte) : (busWrite a v s).ram.wf = true := by
  unfold busWrite
  cases route a with
  | ram i => exact Memory.wf_write h _ _
  | port p => cases p <;> exact h
  | _ => exact h

theorem busWrite_ramWithin {s : State} (h : s.ram.within Config.ramSize = true) (a : Addr) (v : Byte) :
    (busWrite a v s).ram.within Config.ramSize = true := by
  unfold busWrite
  generalize hr : route a = r
  cases r with
  | ram i => exact Memory.within_write h (route_ram_lt hr) v
  | port p => cases p <;> exact h
  | _ => exact h

theorem busWrite_cpuFrame (a : Addr) (v : Byte) (s : State) : CpuFrame s (busWrite a v s) where
  nmiLatch  := busWrite_nmiLatch a v s
  irqLatch  := busWrite_irqLatch a v s
  cart      := busWrite_cart a v s
  buttons1  := busWrite_buttons1 a v s
  buttons2  := busWrite_buttons2 a v s
  inputs    := busWrite_inputs a v s
  dmaCycles := busWrite_dmaCycles a v s
  audioTick := busWrite_audioTick a v s
  frames    := busWrite_frames a v s
  raster    := busWrite_sameRaster a v s
  memories  := fun h => busWrite_memoriesOk h a v
  ramWf     := fun h => busWrite_ramWf h a v
  ramWithin := fun h => busWrite_ramWithin h a v
  reserved  := by rw [busWrite_flag]; exact id
  breakFlag := by rw [busWrite_flag]; exact id

theorem charge_cpuFrame (n : Nat) (s : State) : CpuFrame s (s.charge n) :=
  ⟨rfl, rfl, rfl, rfl, rfl, rfl, rfl, rfl, rfl, ⟨rfl, rfl, rfl, rfl⟩, id, id, id, id, id⟩

/-- A change of the CPU registers that keeps R and B. -/
theorem cpuFrame_of_cpu {s t : State} (h : t = { s with cpu := t.cpu }) (hr : s.flag .r = true → t.flag .r = true)
    (hb : s.flag .b = false → t.flag .b = false) : CpuFrame s t := by
  rw [h] at hr hb ⊢
  exact ⟨rfl, rfl, rfl, rfl, rfl, rfl, rfl, rfl, rfl, ⟨rfl, rfl, rfl, rfl⟩, id, id, id, hr, hb⟩

theorem setSp_cpuFrame (v : Byte) (s : State) : CpuFrame s (s.setSp v) := cpuFrame_of_cpu rfl id id
theorem setPc_cpuFrame (v : Addr) (s : State) : CpuFrame s (s.setPc v) := cpuFrame_of_cpu rfl id id
theorem setA_cpuFrame (v : Byte) (s : State) : CpuFrame s (s.setA v) := cpuFrame_of_cpu rfl id id
theorem setX_cpuFrame (v : Byte) (s : State) : CpuFrame s (s.setX v) := cpuFrame_of_cpu rfl id id
theorem setY_cpuFrame (v : Byte) (s : State) : CpuFrame s (s.setY v) := cpuFrame_of_cpu rfl id id

/-- No flag but R and B is kept by every instruction. -/
theorem setFlag_cpuFrame {f : Flag} (hr : f ≠ .r) (hb : f ≠ .b) (v : Bool) (s : State) : CpuFrame s (s.setFlag f v) :=
  cpuFrame_of_cpu rfl
    (by rw [flag_setFlag, if_neg (Ne.symm hr)]; exact id) (by rw [flag_setFlag, if_neg (Ne.symm hb)]; exact id)

theorem setZN_cpuFrame (v : Byte) (s : State) : CpuFrame s (s.setZN v) :=
  (setFlag_cpuFrame (by decide) (by decide) _ s).trans (setFlag_cpuFrame (by decide) (by decide) _ _)

/-- P as PLP and RTI load it has R = 1 and B = 0 (R213). -/
theorem loadedStatus_cpuFrame (b : Byte) (s : State) : CpuFrame s (s.setP (loadedStatus b)) := by
  refine cpuFrame_of_cpu rfl (fun _ => ?_) (fun _ => ?_)
  · change bit (loadedStatus b) 5 = true; simp [bit, loadedStatus]
  · change bit (loadedStatus b) 4 = false; simp [bit, loadedStatus]

theorem addWithCarry_cpuFrame (m : Byte) (s : State) : CpuFrame s (addWithCarry m s) := by
  unfold addWithCarry
  exact (((setFlag_cpuFrame (by decide) (by decide) _ s).trans (setFlag_cpuFrame (by decide) (by decide) _ _)).trans
    (setA_cpuFrame _ _)).trans (setZN_cpuFrame _ _)

theorem compare_cpuFrame (r m : Byte) (s : State) : CpuFrame s (compareBytes r m s) :=
  (setFlag_cpuFrame (by decide) (by decide) _ s).trans (setZN_cpuFrame _ _)

theorem bitTest_cpuFrame (m : Byte) (s : State) : CpuFrame s (bitTest m s) :=
  ((setFlag_cpuFrame (by decide) (by decide) _ s).trans (setFlag_cpuFrame (by decide) (by decide) _ _)).trans
    (setFlag_cpuFrame (by decide) (by decide) _ _)

theorem push_cpuFrame (b : Byte) (s : State) : CpuFrame s (push b s) :=
  (busWrite_cpuFrame _ b s).trans (setSp_cpuFrame _ _)

theorem push16_cpuFrame (w : Addr) (s : State) : CpuFrame s (push16 w s) :=
  (push_cpuFrame _ s).trans (push_cpuFrame _ _)

theorem pull_cpuFrame (s : State) : CpuFrame s (pull s).2 := (setSp_cpuFrame _ s).trans (busRead_cpuFrame _ _)

theorem pull16_cpuFrame (s : State) : CpuFrame s (pull16 s).2 := (pull_cpuFrame s).trans (pull_cpuFrame _)

theorem read16_cpuFrame (a : Addr) (s : State) : CpuFrame s (read16 a s).2 :=
  (busRead_cpuFrame a s).trans (busRead_cpuFrame _ _)

theorem enterHandler_cpuFrame (vector ret : Addr) (status : Byte) (s : State) :
    CpuFrame s (enterHandler vector ret status s) := by
  unfold enterHandler
  exact ((((push16_cpuFrame ret s).trans (push_cpuFrame status _)).trans
    (setFlag_cpuFrame (by decide) (by decide) true _)).trans (read16_cpuFrame vector _)).trans (setPc_cpuFrame _ _)

theorem returnFromHandler_cpuFrame (s : State) : CpuFrame s (returnFromHandler s) := by
  unfold returnFromHandler
  exact (((pull_cpuFrame s).trans (loadedStatus_cpuFrame _ _)).trans (pull16_cpuFrame _)).trans (setPc_cpuFrame _ _)

/-! ### The access classes -/

theorem resolve_cpuFrame (m : Mem) (s : State) : CpuFrame s (resolve m s).post := by
  rw [resolve_post]; exact CpuFrame.refl s

theorem readMemClass_cpuFrame {use : Byte → State → State} (h : ∀ m t, CpuFrame t (use m t)) (base : Nat) (m : Mem)
    (s : State) : CpuFrame s (readMemClass base m use s) := by
  rw [readMemClass_eq]
  exact ((busRead_cpuFrame _ s).trans (h _ _)).trans (charge_cpuFrame _ _)

theorem readClass_cpuFrame {use : Byte → State → State} (h : ∀ m t, CpuFrame t (use m t)) (base : Nat) (src : Src)
    (s : State) : CpuFrame s (readClass base src use s) := by
  cases src with
  | imm v => exact (h v s).trans (charge_cpuFrame _ _)
  | mem m => exact readMemClass_cpuFrame h base m s

theorem writeClass_cpuFrame (base : Nat) (m : Mem) (v : Byte) (s : State) : CpuFrame s (writeClass base m v s) := by
  rw [writeClass_eq]
  exact (busWrite_cpuFrame _ v s).trans (charge_cpuFrame _ _)

theorem rmwClass_cpuFrame {new : Bool → Byte → Byte} {after : Byte → Byte → State → State}
    (h : ∀ m r t, CpuFrame t (after m r t)) (base : Nat) (m : Mem) (s : State) :
    CpuFrame s (rmwClass base m new after s) := by
  rw [rmwClass_eq]
  exact (((busRead_cpuFrame _ s).trans (busWrite_cpuFrame _ _ _)).trans (h _ _ _)).trans (charge_cpuFrame _ _)

theorem shiftClass_cpuFrame {new : Bool → Byte → Byte} {after : Byte → Byte → State → State}
    (h : ∀ m r t, CpuFrame t (after m r t)) (dst : Dst) (s : State) : CpuFrame s (shiftClass dst new after s) := by
  cases dst with
  | acc => exact ((setA_cpuFrame _ s).trans (h _ _ _)).trans (charge_cpuFrame _ _)
  | mem m => exact rmwClass_cpuFrame h _ m s

theorem impliedClass_cpuFrame {f : State → State} (h : ∀ t, CpuFrame t (f t)) (base : Nat) (s : State) :
    CpuFrame s (impliedClass base f s) := (h s).trans (charge_cpuFrame base _)

theorem branchClass_cpuFrame (taken : Bool) (d : Byte) (s : State) : CpuFrame s (branchClass taken d s) := by
  unfold branchClass
  simp only
  split
  · exact (setPc_cpuFrame _ s).trans (charge_cpuFrame _ _)
  · exact charge_cpuFrame _ s

/-! ### Every instruction -/

/-- What an instruction that completes can do. -/
theorem exec_cpuFrame {i : Instr} {s t : State} (h : exec i s = .next t) : CpuFrame s t := by
  cases i
  all_goals first
    | (cases h; done)
    | (injection h with h; subst h)
  case lda => exact readClass_cpuFrame (fun m t => (setA_cpuFrame m t).trans (setZN_cpuFrame _ _)) _ _ s
  case ldx => exact readClass_cpuFrame (fun m t => (setX_cpuFrame m t).trans (setZN_cpuFrame _ _)) _ _ s
  case ldy => exact readClass_cpuFrame (fun m t => (setY_cpuFrame m t).trans (setZN_cpuFrame _ _)) _ _ s
  case and | ora | eor => exact readClass_cpuFrame (fun _ t => (setA_cpuFrame _ t).trans (setZN_cpuFrame _ _)) _ _ s
  case adc => exact readClass_cpuFrame addWithCarry_cpuFrame _ _ s
  case sbc | sbcAlias => exact readClass_cpuFrame (fun m t => addWithCarry_cpuFrame _ t) _ _ s
  case cmp | cpx | cpy => exact readClass_cpuFrame (fun m t => compare_cpuFrame _ m t) _ _ s
  case bit => exact readMemClass_cpuFrame bitTest_cpuFrame _ _ s
  case lax =>
    exact readMemClass_cpuFrame
      (fun m t => ((setA_cpuFrame m t).trans (setX_cpuFrame m _)).trans (setZN_cpuFrame _ _)) _ _ s
  case sta | stx | sty | sax => exact writeClass_cpuFrame _ _ _ s
  case inc | dec => exact rmwClass_cpuFrame (fun _ r t => setZN_cpuFrame r t) _ _ s
  case dcp => exact rmwClass_cpuFrame (fun _ r t => compare_cpuFrame _ r t) _ _ s
  case isb => exact rmwClass_cpuFrame (fun _ r t => addWithCarry_cpuFrame _ t) _ _ s
  case rra =>
    exact rmwClass_cpuFrame (fun m r t => (setFlag_cpuFrame (by decide) (by decide) _ t).trans
      (addWithCarry_cpuFrame r _)) _ _ s
  case slo | rla | sre =>
    exact rmwClass_cpuFrame (fun m r t => ((setFlag_cpuFrame (by decide) (by decide) _ t).trans
      (setA_cpuFrame _ _)).trans (setZN_cpuFrame _ _)) _ _ s
  case asl | rol | ror =>
    exact shiftClass_cpuFrame (fun m r t => (setFlag_cpuFrame (by decide) (by decide) _ t).trans
      (setZN_cpuFrame _ _)) _ s
  case lsr =>
    exact shiftClass_cpuFrame (fun m r t => ((setFlag_cpuFrame (by decide) (by decide) _ t).trans
      (setFlag_cpuFrame (by decide) (by decide) _ _)).trans (setFlag_cpuFrame (by decide) (by decide) _ _)) _ s
  case tax | tsx | inx | dex => exact impliedClass_cpuFrame (fun t => (setX_cpuFrame _ t).trans (setZN_cpuFrame _ _)) _ s
  case tay | iny | dey => exact impliedClass_cpuFrame (fun t => (setY_cpuFrame _ t).trans (setZN_cpuFrame _ _)) _ s
  case txa | tya => exact impliedClass_cpuFrame (fun t => (setA_cpuFrame _ t).trans (setZN_cpuFrame _ _)) _ s
  case txs => exact impliedClass_cpuFrame (fun t => setSp_cpuFrame _ t) _ s
  case pha | php => exact impliedClass_cpuFrame (fun t => push_cpuFrame _ t) _ s
  case pla =>
    exact impliedClass_cpuFrame (fun t => ((pull_cpuFrame t).trans (setA_cpuFrame _ _)).trans (setZN_cpuFrame _ _)) _ s
  case plp => exact impliedClass_cpuFrame (fun t => (pull_cpuFrame t).trans (loadedStatus_cpuFrame _ _)) _ s
  case clc | sec | cli | sei | cld | sed | clv =>
    exact impliedClass_cpuFrame (fun t => setFlag_cpuFrame (by decide) (by decide) _ t) _ s
  case nop => exact impliedClass_cpuFrame (fun t => CpuFrame.refl t) _ s
  case jmpAbs => exact (setPc_cpuFrame _ s).trans (charge_cpuFrame _ _)
  case jmpInd =>
    exact (((busRead_cpuFrame _ s).trans (busRead_cpuFrame _ _)).trans (setPc_cpuFrame _ _)).trans (charge_cpuFrame _ _)
  case jsr => exact ((push16_cpuFrame _ s).trans (setPc_cpuFrame _ _)).trans (charge_cpuFrame _ _)
  case rts => exact impliedClass_cpuFrame (fun t => (pull16_cpuFrame t).trans (setPc_cpuFrame _ _)) _ s
  case bpl | bmi | bvc | bvs | bcc | bcs | bne | beq => exact branchClass_cpuFrame _ _ s
  case brk => exact impliedClass_cpuFrame (fun t => enterHandler_cpuFrame _ _ _ t) _ s
  case rti => exact impliedClass_cpuFrame returnFromHandler_cpuFrame _ s
  case nopUnofficial op arg =>
    refine CpuFrame.trans ?_ (charge_cpuFrame _ _)
    cases arg with
    | mem m => exact resolve_cpuFrame m s
    | _ => exact CpuFrame.refl s

end Sys2Proof.Machine
end

