-- ==== Sys2Proof/Laws/PerInstr.lean ====
section
/-! SUPPORT. Statements made of every instruction, one lemma for each constructor. -/

namespace Sys2Proof.Laws.EncodedLength

/-- A well-formed instruction is encoded in as many bytes as are fetched for it, one to three, and its first byte alone
says how many (30_encoding.md R100, R101). -/
def Statement (i : Instr) : Prop :=
  i.wellFormed = true → (encode i).length = i.length ∧ 1 ≤ i.length ∧ i.length ≤ 3 ∧
    ∃ op rest, encode i = op :: rest ∧ opcodeLength op = i.length

/-! ### The shapes: one opcode byte, no encoding, or any opcode byte of a list -/

theorem of_opcode {i : Instr} (op : Byte) (h : i.opcode = some op) (hl : (op :: i.operand).length = i.length)
    (hn : (Nat.ble 1 i.length && Nat.ble i.length 3) = true) (ho : opcodeLength op = i.length) : Statement i := by
  intro _
  have e : encode i = op :: i.operand := by unfold encode; rw [h]
  rw [Bool.and_eq_true, Nat.ble_eq, Nat.ble_eq] at hn
  exact ⟨by rw [e]; exact hl, hn.1, hn.2, op, i.operand, e, ho⟩

theorem of_illFormed {i : Instr} (h : i.wellFormed = false) : Statement i := fun g => by rw [h] at g; cases g

theorem of_listed {i : Instr} (ops : List Byte) (op : Byte) (hw : i.wellFormed = ops.contains op)
    (hi : i.opcode = oneOf ops op) (hl : (op :: i.operand).length = i.length)
    (hn : (Nat.ble 1 i.length && Nat.ble i.length 3) = true)
    (ho : (ops.all fun op => Nat.beq (opcodeLength op) i.length) = true) : Statement i := by
  intro h
  rw [hw] at h
  have hop := Nat.eq_of_beq_eq_true (List.all_eq_true.mp ho op (List.contains_iff_mem.mp h))
  exact of_opcode op (by rw [hi, oneOf, if_pos h]) hl hn hop (hw.trans h)

/-! ### The lemmas -/

theorem lda (src : Src) : Statement (.lda src) := by
  rcases src with v | (z | z | z | w | w | w | z | z) <;>
    first | exact of_opcode _ rfl rfl rfl rfl | exact of_illFormed rfl
theorem ldx (src : Src) : Statement (.ldx src) := by
  rcases src with v | (z | z | z | w | w | w | z | z) <;>
    first | exact of_opcode _ rfl rfl rfl rfl | exact of_illFormed rfl
theorem ldy (src : Src) : Statement (.ldy src) := by
  rcases src with v | (z | z | z | w | w | w | z | z) <;>
    first | exact of_opcode _ rfl rfl rfl rfl | exact of_illFormed rfl
theorem sta (dst : Mem) : Statement (.sta dst) := by
  cases dst <;> first | exact of_opcode _ rfl rfl rfl rfl | exact of_illFormed rfl
theorem stx (dst : Mem) : Statement (.stx dst) := by
  cases dst <;> first | exact of_opcode _ rfl rfl rfl rfl | exact of_illFormed rfl
theorem sty (dst : Mem) : Statement (.sty dst) := by
  cases dst <;> first | exact of_opcode _ rfl rfl rfl rfl | exact of_illFormed rfl
theorem tax : Statement .tax := of_opcode _ rfl rfl rfl rfl
theorem tay : Statement .tay := of_opcode _ rfl rfl rfl rfl
theorem txa : Statement .txa := of_opcode _ rfl rfl rfl rfl
theorem tya : Statement .tya := of_opcode _ rfl rfl rfl rfl
theorem tsx : Statement .tsx := of_opcode _ rfl rfl rfl rfl
theorem txs : Statement .txs := of_opcode _ rfl rfl rfl rfl
theorem adc (src : Src) : Statement (.adc src) := by
  rcases src with v | (z | z | z | w | w | w | z | z) <;>
    first | exact of_opcode _ rfl rfl rfl rfl | exact of_illFormed rfl
theorem sbc (src : Src) : Statement (.sbc src) := by
  rcases src with v | (z | z | z | w | w | w | z | z) <;>
    first | exact of_opcode _ rfl rfl rfl rfl | exact of_illFormed rfl
theorem and (src : Src) : Statement (.and src) := by
  rcases src with v | (z | z | z | w | w | w | z | z) <;>
    first | exact of_opcode _ rfl rfl rfl rfl | exact of_illFormed rfl
theorem ora (src : Src) : Statement (.ora src) := by
  rcases src with v | (z | z | z | w | w | w | z | z) <;>
    first | exact of_opcode _ rfl rfl rfl rfl | exact of_illFormed rfl
theorem eor (src : Src) : Statement (.eor src) := by
  rcases src with v | (z | z | z | w | w | w | z | z) <;>
    first | exact of_opcode _ rfl rfl rfl rfl | exact of_illFormed rfl
theorem bit (src : Mem) : Statement (.bit src) := by
  cases src <;> first | exact of_opcode _ rfl rfl rfl rfl | exact of_illFormed rfl
theorem cmp (src : Src) : Statement (.cmp src) := by
  rcases src with v | (z | z | z | w | w | w | z | z) <;>
    first | exact of_opcode _ rfl rfl rfl rfl | exact of_illFormed rfl
theorem cpx (src : Src) : Statement (.cpx src) := by
  rcases src with v | (z | z | z | w | w | w | z | z) <;>
    first | exact of_opcode _ rfl rfl rfl rfl | exact of_illFormed rfl
theorem cpy (src : Src) : Statement (.cpy src) := by
  rcases src with v | (z | z | z | w | w | w | z | z) <;>
    first | exact of_opcode _ rfl rfl rfl rfl | exact of_illFormed rfl
theorem inc (dst : Mem) : Statement (.inc dst) := by
  cases dst <;> first | exact of_opcode _ rfl rfl rfl rfl | exact of_illFormed rfl
theorem dec (dst : Mem) : Statement (.dec dst) := by
  cases dst <;> first | exact of_opcode _ rfl rfl rfl rfl | exact of_illFormed rfl
theorem inx : Statement .inx := of_opcode _ rfl rfl rfl rfl
theorem iny : Statement .iny := of_opcode _ rfl rfl rfl rfl
theorem dex : Statement .dex := of_opcode _ rfl rfl rfl rfl
theorem dey : Statement .dey := of_opcode _ rfl rfl rfl rfl
theorem asl (dst : Dst) : Statement (.asl dst) := by
  rcases dst with _ | (z | z | z | w | w | w | z | z) <;>
    first | exact of_opcode _ rfl rfl rfl rfl | exact of_illFormed rfl
theorem lsr (dst : Dst) : Statement (.lsr dst) := by
  rcases dst with _ | (z | z | z | w | w | w | z | z) <;>
    first | exact of_opcode _ rfl rfl rfl rfl | exact of_illFormed rfl
theorem rol (dst : Dst) : Statement (.rol dst) := by
  rcases dst with _ | (z | z | z | w | w | w | z | z) <;>
    first | exact of_opcode _ rfl rfl rfl rfl | exact of_illFormed rfl
theorem ror (dst : Dst) : Statement (.ror dst) := by
  rcases dst with _ | (z | z | z | w | w | w | z | z) <;>
    first | exact of_opcode _ rfl rfl rfl rfl | exact of_illFormed rfl
theorem pha : Statement .pha := of_opcode _ rfl rfl rfl rfl
theorem php : Statement .php := of_opcode _ rfl rfl rfl rfl
theorem pla : Statement .pla := of_opcode _ rfl rfl rfl rfl
theorem plp : Statement .plp := of_opcode _ rfl rfl rfl rfl
theorem clc : Statement .clc := of_opcode _ rfl rfl rfl rfl
theorem sec : Statement .sec := of_opcode _ rfl rfl rfl rfl
theorem cli : Statement .cli := of_opcode _ rfl rfl rfl rfl
theorem sei : Statement .sei := of_opcode _ rfl rfl rfl rfl
theorem cld : Statement .cld := of_opcode _ rfl rfl rfl rfl
theorem sed : Statement .sed := of_opcode _ rfl rfl rfl rfl
theorem clv : Statement .clv := of_opcode _ rfl rfl rfl rfl
theorem nop : Statement .nop := of_opcode _ rfl rfl rfl rfl
theorem jmpAbs (w : Addr) : Statement (.jmpAbs w) := of_opcode _ rfl rfl rfl rfl
theorem jmpInd (w : Addr) : Statement (.jmpInd w) := of_opcode _ rfl rfl rfl rfl
theorem jsr (w : Addr) : Statement (.jsr w) := of_opcode _ rfl rfl rfl rfl
theorem rts : Statement .rts := of_opcode _ rfl rfl rfl rfl
theorem bpl (d : Byte) : Statement (.bpl d) := of_opcode _ rfl rfl rfl rfl
theorem bmi (d : Byte) : Statement (.bmi d) := of_opcode _ rfl rfl rfl rfl
theorem bvc (d : Byte) : Statement (.bvc d) := of_opcode _ rfl rfl rfl rfl
theorem bvs (d : Byte) : Statement (.bvs d) := of_opcode _ rfl rfl rfl rfl
theorem bcc (d : Byte) : Statement (.bcc d) := of_opcode _ rfl rfl rfl rfl
theorem bcs (d : Byte) : Statement (.bcs d) := of_opcode _ rfl rfl rfl rfl
theorem bne (d : Byte) : Statement (.bne d) := of_opcode _ rfl rfl rfl rfl
theorem beq (d : Byte) : Statement (.beq d) := of_opcode _ rfl rfl rfl rfl
theorem brk : Statement .brk := of_opcode _ rfl rfl rfl rfl
theorem rti : Statement .rti := of_opcode _ rfl rfl rfl rfl
theorem lax (src : Mem) : Statement (.lax src) := by
  cases src <;> first | exact of_opcode _ rfl rfl rfl rfl | exact of_illFormed rfl
theorem sax (dst : Mem) : Statement (.sax dst) := by
  cases dst <;> first | exact of_opcode _ rfl rfl rfl rfl | exact of_illFormed rfl
theorem dcp (dst : Mem) : Statement (.dcp dst) := by
  cases dst <;> first | exact of_opcode _ rfl rfl rfl rfl | exact of_illFormed rfl
theorem isb (dst : Mem) : Statement (.isb dst) := by
  cases dst <;> first | exact of_opcode _ rfl rfl rfl rfl | exact of_illFormed rfl
theorem slo (dst : Mem) : Statement (.slo dst) := by
  cases dst <;> first | exact of_opcode _ rfl rfl rfl rfl | exact of_illFormed rfl
theorem rla (dst : Mem) : Statement (.rla dst) := by
  cases dst <;> first | exact of_opcode _ rfl rfl rfl rfl | exact of_illFormed rfl
theorem sre (dst : Mem) : Statement (.sre dst) := by
  cases dst <;> first | exact of_opcode _ rfl rfl rfl rfl | exact of_illFormed rfl
theorem rra (dst : Mem) : Statement (.rra dst) := by
  cases dst <;> first | exact of_opcode _ rfl rfl rfl rfl | exact of_illFormed rfl
theorem nopUnofficial (op : Byte) (arg : NopArg) : Statement (.nopUnofficial op arg) := by
  refine of_listed (nopOpcodes arg.mode) op rfl rfl ?_ ?_ ?_ <;>
    rcases arg with _ | v | (z | z | z | w | w | w | z | z) <;> rfl
theorem sbcAlias (v : Byte) : Statement (.sbcAlias v) := of_opcode _ rfl rfl rfl rfl
theorem kil (op : Byte) : Statement (.kil op) := of_listed kilOpcodes op rfl rfl rfl rfl rfl
theorem anc (op : Byte) : Statement (.anc op) := of_listed [0x0B, 0x2B] op rfl rfl rfl rfl rfl
theorem alr : Statement .alr := of_opcode _ rfl rfl rfl rfl
theorem arr : Statement .arr := of_opcode _ rfl rfl rfl rfl
theorem xaa : Statement .xaa := of_opcode _ rfl rfl rfl rfl
theorem lxa : Statement .lxa := of_opcode _ rfl rfl rfl rfl
theorem axs : Statement .axs := of_opcode _ rfl rfl rfl rfl
theorem ahx (op : Byte) : Statement (.ahx op) := of_listed [0x93, 0x9F] op rfl rfl rfl rfl rfl
theorem shy : Statement .shy := of_opcode _ rfl rfl rfl rfl
theorem shx : Statement .shx := of_opcode _ rfl rfl rfl rfl
theorem tas : Statement .tas := of_opcode _ rfl rfl rfl rfl
theorem las : Statement .las := of_opcode _ rfl rfl rfl rfl

end Sys2Proof.Laws.EncodedLength
end

