-- ==== Sys2Proof/Laws/Sequencer.lean ====
section
/-! SUPPORT. What the parts of the system step around the instruction can do: the inputs, the DMA transfer, an interrupt's
entry and the fetch. -/

namespace Sys2Proof.Machine

/-! ### Inputs -/

/-- An input event writes the buttons and the IRQ latch at most. -/
theorem applyInput_cases (s : State) (e : InputEvent) :
    ∃ b1 b2 q, applyInput s e = ((s.setButtons1 b1).setButtons2 b2).setIrq q := by
  cases e with
  | irqIn => exact ⟨s.buttons1, s.buttons2, true, rfl⟩
  | keyDown p k =>
    cases p with
    | one => exact ⟨setButton s.buttons1 k true, s.buttons2, s.irqLatch, rfl⟩
    | two => exact ⟨s.buttons1, setButton s.buttons2 k true, s.irqLatch, rfl⟩
  | keyUp p k =>
    cases p with
    | one => exact ⟨setButton s.buttons1 k false, s.buttons2, s.irqLatch, rfl⟩
    | two => exact ⟨s.buttons1, setButton s.buttons2 k false, s.irqLatch, rfl⟩

theorem applyInputs_cases (es : List InputEvent) (s : State) :
    ∃ b1 b2 q, es.foldl applyInput s = ((s.setButtons1 b1).setButtons2 b2).setIrq q := by
  induction es generalizing s with
  | nil => exact ⟨s.buttons1, s.buttons2, s.irqLatch, rfl⟩
  | cons e es ih =>
    obtain ⟨b1, b2, q, h⟩ := applyInput_cases s e
    obtain ⟨c1, c2, r, h'⟩ := ih (applyInput s e)
    exact ⟨c1, c2, r, by rw [List.foldl_cons, h', h]; rfl⟩

/-- The inputs due write the buttons, the IRQ latch and the schedule at most. -/
theorem takeInputs_cases (s : State) :
    ∃ l b1 b2 q, takeInputs s = (((s.setInputs l).setButtons1 b1).setButtons2 b2).setIrq q := by
  unfold takeInputs
  split
  · exact ⟨s.inputs, s.buttons1, s.buttons2, s.irqLatch, rfl⟩
  · next now later _ =>
    obtain ⟨b1, b2, q, h⟩ := applyInputs_cases now (s.setInputs later)
    exact ⟨later, b1, b2, q, h⟩

/-- A step begins with nothing put out. -/
theorem beginStep_out (s : State) : (beginStep s).out = Outputs.empty := by
  obtain ⟨l, b1, b2, q, h⟩ := takeInputs_cases (s.setOut Outputs.empty)
  rw [beginStep, h]; rfl

/-- The inputs leave the DMA Unit. -/
theorem beginStep_dma (s : State) : (beginStep s).dma = s.dma := by
  obtain ⟨l, b1, b2, q, h⟩ := takeInputs_cases (s.setOut Outputs.empty)
  rw [beginStep, h]; rfl

/-! ### The DMA transfer (60_exceptions.md R341) -/

theorem dmaFold_wf {ram oam : Memory} (h : oam.wf = true) (page a : Byte) (is : List Nat) :
    (is.foldl (dmaByte ram page a) oam).wf = true := by
  induction is generalizing oam with
  | nil => exact h
  | cons i is ih => exact ih (Memory.wf_write h _ _)

theorem dmaFold_within {ram oam : Memory} (h : oam.within Config.oamSize = true) (page a : Byte) (is : List Nat) :
    (is.foldl (dmaByte ram page a) oam).within Config.oamSize = true := by
  induction is generalizing oam with
  | nil => exact h
  | cons i is ih => exact ih (Memory.within_write h (BitVec.isLt _) _)

/-- The transfer keeps sprite memory canonical and in range. -/
theorem dmaCopy_wf {ram oam : Memory} (h : oam.wf = true) (page a : Byte) : (dmaCopy ram page a oam).wf = true :=
  dmaFold_wf h page a _

theorem dmaCopy_within {ram oam : Memory} (h : oam.within Config.oamSize = true) (page a : Byte) :
    (dmaCopy ram page a oam).within Config.oamSize = true := dmaFold_within h page a _

/-- A pending transfer, or nothing. -/
theorem runDma_cases (s : State) :
    (s.dma.pending = true ∧ runDma s = (dmaTransfer s).chargeDma Config.dmaCycles) ∨
    (s.dma.pending = false ∧ runDma s = s) := by
  unfold runDma
  cases h : s.dma.pending
  · exact .inr ⟨rfl, rfl⟩
  · exact .inl ⟨rfl, rfl⟩

/-- Of the outputs, a transfer's own cycles alone change, and only where one was pending. -/
theorem runDma_out (s : State) :
    (runDma s).out = { s.out with dmaCycles := s.out.dmaCycles + if s.dma.pending then Config.dmaCycles else 0 } := by
  obtain ⟨h, e⟩ | ⟨h, e⟩ := runDma_cases s <;> rw [e, h] <;> rfl

/-! ### Interrupts -/

/-- An NMI is entered, or an unmasked IRQ, or nothing. -/
theorem serviceInterrupt_cases (s : State) :
    (s.nmiLatch = true ∧ serviceInterrupt s = (deassertNmi (interruptEntry 0xFFFA#16 s)).charge Config.intEntryCycles) ∨
    (s.nmiLatch = false ∧ s.irqLatch = true ∧ s.flag .i = false ∧
      serviceInterrupt s = (deassertIrq (interruptEntry 0xFFFE#16 s)).charge Config.intEntryCycles) ∨
    (s.nmiLatch = false ∧ (s.irqLatch = false ∨ s.flag .i = true) ∧ serviceInterrupt s = s) := by
  unfold serviceInterrupt
  cases h : s.nmiLatch
  · refine .inr ?_
    rw [if_neg Bool.false_ne_true]
    by_cases g : s.irqLatch = true ∧ ¬ s.flag .i = true
    · exact .inl ⟨rfl, g.1, Bool.eq_false_iff.mpr g.2, if_pos g⟩
    · refine .inr ⟨rfl, ?_, if_neg g⟩
      cases hq : s.irqLatch
      · exact .inl rfl
      · refine .inr ?_
        cases hi : s.flag .i
        · exact absurd ⟨hq, by rw [hi]; exact Bool.false_ne_true⟩ g
        · rfl
  · exact .inl ⟨rfl, if_pos rfl⟩

/-- An interrupt's entry adds nothing to a transfer's cycles. -/
theorem serviceInterrupt_dmaCycles (s : State) : (serviceInterrupt s).out.dmaCycles = s.out.dmaCycles := by
  have entry (v : Addr) : (interruptEntry v s).out.dmaCycles = s.out.dmaCycles := by
    simp [interruptEntry, enterHandler, push16, push, read16]
  obtain ⟨_, e⟩ | ⟨_, _, _, e⟩ | ⟨_, _, e⟩ := serviceInterrupt_cases s <;> rw [e]
  · exact (State.charge_dmaCycles _ _).trans (entry _)
  · exact (State.charge_dmaCycles _ _).trans (entry _)

/-! ### The fetch -/

theorem fetch8_cpuFrame (s : State) : CpuFrame s (fetch8 s).2 := (busRead_cpuFrame _ s).trans (setPc_cpuFrame _ _)

theorem fetchInstr_cpuFrame (s : State) : CpuFrame s (fetchInstr s).2 := by
  unfold fetchInstr
  simp only
  split
  · exact (fetch8_cpuFrame s).trans (fetch8_cpuFrame _)
  · exact ((fetch8_cpuFrame s).trans (fetch8_cpuFrame _)).trans (fetch8_cpuFrame _)
  · exact fetch8_cpuFrame s

/-! ### Memory at reset -/

/-- Every memory of the machine is canonical right after reset. -/
theorem reset_memories_wf :
    State.reset.ram.wf = true ∧ State.reset.ppu.pat.wf = true ∧ State.reset.ppu.vram.wf = true ∧
      State.reset.ppu.oam.wf = true ∧ State.reset.ppu.pal.wf = true ∧ State.reset.cart.prg.wf = true :=
  ⟨rfl, rfl, rfl, rfl, rfl, rfl⟩

end Sys2Proof.Machine
end

