-- ==== Sys2Proof/Tests/Slice0.lean ====
section
/-! SUPPORT. The model's own tests: ill-formed terms refused, words written out from the opcode table decoded, the vectors
of 95_test_vectors.md (at most two for an instruction), and a witness for every statement that has hypotheses. -/

namespace Sys2Proof.Tests

open Sys2Proof Sys2Proof.Machine

/-! ### Helpers -/

/-- The reset state with these bytes of program ROM, registers and bytes of RAM. -/
def machine (prg : Memory) (c : Cpu) (ram : Memory) : State :=
  { State.reset with cart := { Cartridge.blank with prg := prg }, cpu := c, ram := ram }

/-- Bytes of program ROM from an index on. -/
def code (at0 : Nat) (bytes : List Byte) : Memory := Memory.ofBytes at0 bytes

def regs (a x y sp p : Byte) (pc : Addr) : Cpu := { a := a, x := x, y := y, sp := sp, p := p, pc := pc }

/-- The registers, the cycles and these bytes of RAM after a step. -/
def seen (cells : List Nat) : Host.Outcome State Fault Refusal → Option (Cpu × Nat × List Byte)
  | .next t => some (t.cpu, t.out.cycles, cells.map t.ram.read)
  | .fault _ => none
  | .refused _ => none

/-- The state after a step that completes; `s` itself where it does not. -/
def nextOr (s : State) : Host.Outcome State Fault Refusal → State
  | .next t => t
  | .fault _ => s
  | .refused _ => s

def completes : Host.Outcome State Fault Refusal → Bool
  | .next _ => true
  | .fault _ => false
  | .refused _ => false

/-- The opcode byte and the PC of a stop. -/
def stopOf : Host.Outcome State Fault Refusal → Option (Byte × Addr)
  | .fault (.illegalOpcode op t) => some (op, t.cpu.pc)
  | .next _ => none
  | .refused _ => none

/-- The reset registers with PC at the start of program ROM. -/
def regs0 : Cpu := regs 0x00 0x00 0x00 0xFD 0x24 0x8000

/-- A machine at the start of a program of these bytes. -/
def at8000 (bytes : List Byte) : State := machine (code 0 bytes) regs0 []

/-- The reset machine with its PPU changed. -/
def withPpu (f : Ppu → Ppu) : State := State.reset.setPpu (f State.reset.ppu)

/-! ### Well-formedness: a term that each check refuses -/

theorem test_illformed_read_operand :
    Instr.wellFormed (.lda (.mem (.zpy 0x10))) = false ∧ Instr.wellFormed (.adc (.mem (.zpy 0x10))) = false ∧
    Instr.wellFormed (.ldx (.mem (.zpx 0x10))) = false ∧ Instr.wellFormed (.ldy (.mem (.aby 0x1234))) = false ∧
    Instr.wellFormed (.cpx (.mem (.zpx 0x10))) = false ∧ Instr.wellFormed (.cpy (.mem (.abx 0x1234))) = false ∧
    Instr.wellFormed (.bit (.zpx 0x10)) = false := by decide

theorem test_illformed_written_operand :
    Instr.wellFormed (.sta (.zpy 0x10)) = false ∧ Instr.wellFormed (.stx (.zpx 0x10)) = false ∧
    Instr.wellFormed (.sty (.abx 0x1234)) = false ∧ Instr.wellFormed (.inc (.aby 0x1234)) = false ∧
    Instr.wellFormed (.asl (.mem (.izx 0x10))) = false ∧ Instr.wellFormed (.ror (.mem (.aby 0x1234))) = false ∧
    Instr.wellFormed (.lax (.zpx 0x10)) = false ∧ Instr.wellFormed (.sax (.zpx 0x10)) = false ∧
    Instr.wellFormed (.dcp (.zpy 0x10)) = false := by decide

theorem test_illformed_opcode_byte :
    Instr.wellFormed (.nopUnofficial 0xEA .imp) = false ∧ Instr.wellFormed (.nopUnofficial 0x1A (.imm 0x00)) = false ∧
    Instr.wellFormed (.nopUnofficial 0x0C (.mem (.aby 0x1234))) = false ∧ Instr.wellFormed (.kil 0x03) = false ∧
    Instr.wellFormed (.anc 0x4B) = false ∧ Instr.wellFormed (.ahx 0x9C) = false := by decide

/-! ### Decoding: words as spec/opcode_table.json writes their bits, operand bytes 0x34 and 0x12 -/

theorem test_decode_loads_1 :
    decode [0b10000001, 0b00110100] = .ok (.sta (.izx 0x34)) [] ∧
    decode [0b10000100, 0b00110100] = .ok (.sty (.zp 0x34)) [] ∧
    decode [0b10001110, 0b00110100, 0b00010010] = .ok (.stx (.abs 0x1234)) [] ∧
    decode [0b10001010] = .ok (.txa) [] ∧
    decode [0b10011000] = .ok (.tya) [] ∧
    decode [0b10011010] = .ok (.txs) [] ∧
    decode [0b10100000, 0b00110100] = .ok (.ldy (.imm 0x34)) [] ∧
    decode [0b10100001, 0b00110100] = .ok (.lda (.mem (.izx 0x34))) [] ∧
    decode [0b10100101, 0b00110100] = .ok (.lda (.mem (.zp 0x34))) [] ∧
    decode [0b10101001, 0b00110100] = .ok (.lda (.imm 0x34)) [] ∧
    decode [0b10101101, 0b00110100, 0b00010010] = .ok (.lda (.mem (.abs 0x1234))) [] ∧
    decode [0b10110001, 0b00110100] = .ok (.lda (.mem (.izy 0x34))) [] := by decide

theorem test_decode_loads_2 :
    decode [0b10110101, 0b00110100] = .ok (.lda (.mem (.zpx 0x34))) [] ∧
    decode [0b10111001, 0b00110100, 0b00010010] = .ok (.lda (.mem (.aby 0x1234))) [] ∧
    decode [0b10111101, 0b00110100, 0b00010010] = .ok (.lda (.mem (.abx 0x1234))) [] ∧
    decode [0b10110110, 0b00110100] = .ok (.ldx (.mem (.zpy 0x34))) [] ∧
    decode [0b10101000] = .ok (.tay) [] ∧
    decode [0b10101010] = .ok (.tax) [] ∧
    decode [0b10111010] = .ok (.tsx) [] := by decide

theorem test_decode_arithmetic_1 :
    decode [0b00010001, 0b00110100] = .ok (.ora (.mem (.izy 0x34))) [] ∧
    decode [0b00110101, 0b00110100] = .ok (.and (.mem (.zpx 0x34))) [] ∧
    decode [0b00100100, 0b00110100] = .ok (.bit (.zp 0x34)) [] ∧
    decode [0b01011001, 0b00110100, 0b00010010] = .ok (.eor (.mem (.aby 0x1234))) [] ∧
    decode [0b01100001, 0b00110100] = .ok (.adc (.mem (.izx 0x34))) [] ∧
    decode [0b01100101, 0b00110100] = .ok (.adc (.mem (.zp 0x34))) [] ∧
    decode [0b01101001, 0b00110100] = .ok (.adc (.imm 0x34)) [] ∧
    decode [0b01101101, 0b00110100, 0b00010010] = .ok (.adc (.mem (.abs 0x1234))) [] ∧
    decode [0b01110001, 0b00110100] = .ok (.adc (.mem (.izy 0x34))) [] ∧
    decode [0b01110101, 0b00110100] = .ok (.adc (.mem (.zpx 0x34))) [] ∧
    decode [0b01111001, 0b00110100, 0b00010010] = .ok (.adc (.mem (.aby 0x1234))) [] ∧
    decode [0b01111101, 0b00110100, 0b00010010] = .ok (.adc (.mem (.abx 0x1234))) [] := by decide

theorem test_decode_arithmetic_2 :
    decode [0b10001000] = .ok (.dey) [] ∧
    decode [0b11000000, 0b00110100] = .ok (.cpy (.imm 0x34)) [] ∧
    decode [0b11011101, 0b00110100, 0b00010010] = .ok (.cmp (.mem (.abx 0x1234))) [] ∧
    decode [0b11001110, 0b00110100, 0b00010010] = .ok (.dec (.abs 0x1234)) [] ∧
    decode [0b11001000] = .ok (.iny) [] ∧
    decode [0b11001010] = .ok (.dex) [] ∧
    decode [0b11100000, 0b00110100] = .ok (.cpx (.imm 0x34)) [] ∧
    decode [0b11100001, 0b00110100] = .ok (.sbc (.mem (.izx 0x34))) [] ∧
    decode [0b11110110, 0b00110100] = .ok (.inc (.zpx 0x34)) [] ∧
    decode [0b11101000] = .ok (.inx) [] := by decide

theorem test_decode_shifts :
    decode [0b00001010] = .ok (.asl .acc) [] ∧
    decode [0b00101010] = .ok (.rol .acc) [] ∧
    decode [0b01001010] = .ok (.lsr .acc) [] ∧
    decode [0b01100110, 0b00110100] = .ok (.ror (.mem (.zp 0x34))) [] ∧
    decode [0b01101010] = .ok (.ror .acc) [] ∧
    decode [0b01101110, 0b00110100, 0b00010010] = .ok (.ror (.mem (.abs 0x1234))) [] ∧
    decode [0b01110110, 0b00110100] = .ok (.ror (.mem (.zpx 0x34))) [] ∧
    decode [0b01111110, 0b00110100, 0b00010010] = .ok (.ror (.mem (.abx 0x1234))) [] := by decide

theorem test_decode_stack_flags :
    decode [0b00001000] = .ok (.php) [] ∧
    decode [0b00011000] = .ok (.clc) [] ∧
    decode [0b00101000] = .ok (.plp) [] ∧
    decode [0b00111000] = .ok (.sec) [] ∧
    decode [0b01001000] = .ok (.pha) [] ∧
    decode [0b01011000] = .ok (.cli) [] ∧
    decode [0b01101000] = .ok (.pla) [] ∧
    decode [0b01111000] = .ok (.sei) [] ∧
    decode [0b10111000] = .ok (.clv) [] ∧
    decode [0b11011000] = .ok (.cld) [] ∧
    decode [0b11101010] = .ok (.nop) [] ∧
    decode [0b11111000] = .ok (.sed) [] := by decide

theorem test_decode_control_1 :
    decode [0b00000000] = .ok (.brk) [] ∧
    decode [0b00010000, 0b00110100] = .ok (.bpl 0x34) [] ∧
    decode [0b00100000, 0b00110100, 0b00010010] = .ok (.jsr 0x1234) [] ∧
    decode [0b00110000, 0b00110100] = .ok (.bmi 0x34) [] ∧
    decode [0b01000000] = .ok (.rti) [] ∧
    decode [0b01001100, 0b00110100, 0b00010010] = .ok (.jmpAbs 0x1234) [] ∧
    decode [0b01010000, 0b00110100] = .ok (.bvc 0x34) [] ∧
    decode [0b01100000] = .ok (.rts) [] ∧
    decode [0b01101100, 0b00110100, 0b00010010] = .ok (.jmpInd 0x1234) [] ∧
    decode [0b01110000, 0b00110100] = .ok (.bvs 0x34) [] ∧
    decode [0b10010000, 0b00110100] = .ok (.bcc 0x34) [] ∧
    decode [0b10110000, 0b00110100] = .ok (.bcs 0x34) [] := by decide

theorem test_decode_control_2 :
    decode [0b11010000, 0b00110100] = .ok (.bne 0x34) [] ∧
    decode [0b11110000, 0b00110100] = .ok (.beq 0x34) [] := by decide

theorem test_decode_unofficial_1 :
    decode [0b00010011, 0b00110100] = .ok (.slo (.izy 0x34)) [] ∧
    decode [0b00000100, 0b00110100] = .ok (.nopUnofficial 0x04 (.mem (.zp 0x34))) [] ∧
    decode [0b00001100, 0b00110100, 0b00010010] = .ok (.nopUnofficial 0x0C (.mem (.abs 0x1234))) [] ∧
    decode [0b00010100, 0b00110100] = .ok (.nopUnofficial 0x14 (.mem (.zpx 0x34))) [] ∧
    decode [0b00011010] = .ok (.nopUnofficial 0x1A .imp) [] ∧
    decode [0b00011100, 0b00110100, 0b00010010] = .ok (.nopUnofficial 0x1C (.mem (.abx 0x1234))) [] ∧
    decode [0b10000000, 0b00110100] = .ok (.nopUnofficial 0x80 (.imm 0x34)) [] ∧
    decode [0b00111011, 0b00110100, 0b00010010] = .ok (.rla (.aby 0x1234)) [] ∧
    decode [0b01000011, 0b00110100] = .ok (.sre (.izx 0x34)) [] ∧
    decode [0b01110011, 0b00110100] = .ok (.rra (.izy 0x34)) [] ∧
    decode [0b10010111, 0b00110100] = .ok (.sax (.zpy 0x34)) [] ∧
    decode [0b10110111, 0b00110100] = .ok (.lax (.zpy 0x34)) [] := by decide

theorem test_decode_unofficial_2 :
    decode [0b11011011, 0b00110100, 0b00010010] = .ok (.dcp (.aby 0x1234)) [] ∧
    decode [0b11100011, 0b00110100] = .ok (.isb (.izx 0x34)) [] ∧
    decode [0b11101011, 0b00110100] = .ok (.sbcAlias 0x34) [] := by decide

theorem test_decode_reserved :
    decode [0b00000010] = .ok (.kil 0x02) [] ∧
    decode [0b00001011] = .ok (.anc 0x0B) [] ∧
    decode [0b01001011] = .ok (.alr) [] ∧
    decode [0b01101011] = .ok (.arr) [] ∧
    decode [0b10001011] = .ok (.xaa) [] ∧
    decode [0b10010011] = .ok (.ahx 0x93) [] ∧
    decode [0b10011011] = .ok (.tas) [] ∧
    decode [0b10011100] = .ok (.shy) [] ∧
    decode [0b10011110] = .ok (.shx) [] ∧
    decode [0b10101011] = .ok (.lxa) [] ∧
    decode [0b10111011] = .ok (.las) [] ∧
    decode [0b11001011] = .ok (.axs) [] := by decide

/-! ### Decoding: what is not an instruction, and the table's words -/

theorem test_decode_stops_short :
    decode [] = .noOpcode ∧ decode [0xAD, 0x34] = .truncated 0xAD ∧ decode [0xA9] = .truncated 0xA9 := by decide

theorem test_table_words :
    decodeTableWord 24 0x12346C = some (.jmpInd 0x1234) ∧ decodeTableWord 8 0x6C = some (.jmpInd 0x0000) ∧
    decodeTableWord 16 0x34A9 = some (.lda (.imm 0x34)) ∧ decodeTableWord 8 0x02 = some (.kil 0x02) := by decide

/-- A word is run as the first instruction after reset: LDA #$34. -/
theorem test_withFetchWord :
    seen [] (step (State.reset.withFetchWord 16 0x34A9)) = some (regs 0x34 0x00 0x00 0xFD 0x24 0x0002, 2, []) := by decide

/-- It is, too, where PC is not in memory and where both latches are set and an input event is due. -/
theorem test_withFetchWord_elsewhere :
    seen [] (step ({ State.reset with
      cpu := regs 0 0 0 0xFD 0x20 0x4016, nmiLatch := true, irqLatch := true, inputs := [[.irqIn]] }.withFetchWord 8 0xE8)) =
      some (regs 0x00 0x01 0x00 0xFD 0x20 0x0201, 2, []) := by decide

/-! ### 41_load_store_transfer.md -/

/-- 95_test_vectors.md T11. -/
theorem test_lda_izx_pointer_wraps :
    seen [] (step (machine (code 0x0 [0xA1, 0x20]) (regs 0x00 0xDF 0x00 0xFD 0x24 0x8000) [(0x0, 0x02), (0xff, 0x34), (0x234, 0x5A)])) =
      some (regs 0x5A 0xDF 0x00 0xFD 0x24 0x8002, 6, []) := by decide

/-- 95_test_vectors.md T12. -/
theorem test_lda_izy_pointer_wraps :
    seen [] (step (machine (code 0x0 [0xB1, 0xFF]) (regs 0x00 0x00 0x10 0xFD 0x24 0x8000) [(0x0, 0x02), (0xff, 0xF8), (0x308, 0x6B)])) =
      some (regs 0x6B 0x00 0x10 0xFD 0x24 0x8002, 6, []) := by decide

/-- 95_test_vectors.md T3. -/
theorem test_ldx_zpy_wraps :
    seen [] (step (machine (code 0x0 [0xB6, 0xF0]) (regs 0x00 0x00 0x20 0xFD 0x24 0x8000) [(0x10, 0x7F), (0x110, 0xEE)])) =
      some (regs 0x00 0x7F 0x20 0xFD 0x24 0x8002, 4, []) := by decide

/-- 95_test_vectors.md T4. -/
theorem test_ldy_page_cross :
    seen [] (step (machine (code 0x0 [0xBC, 0xF0, 0x12]) (regs 0x00 0x20 0x00 0xFD 0x24 0x8000) [(0x310, 0x42)])) =
      some (regs 0x00 0x20 0x42 0xFD 0x24 0x8003, 5, []) := by decide

/-- 95_test_vectors.md T40. -/
theorem test_sta_abx_page_cost :
    seen [0x310] (step (machine (code 0x0 [0x9D, 0xF0, 0x12]) (regs 0x11 0x20 0x00 0xFD 0x24 0x8000) [])) =
      some (regs 0x11 0x20 0x00 0xFD 0x24 0x8003, 6, [0x11]) := by decide

/-- 95_test_vectors.md T41. -/
theorem test_sta_izy_page_cost :
    seen [0x308] (step (machine (code 0x0 [0x91, 0x20]) (regs 0x22 0x00 0x10 0xFD 0x24 0x8000) [(0x20, 0xF8), (0x21, 0x02)])) =
      some (regs 0x22 0x00 0x10 0xFD 0x24 0x8002, 7, [0x22]) := by decide

/-- 95_test_vectors.md T6. -/
theorem test_stx_zpy :
    seen [0x11] (step (machine (code 0x0 [0x96, 0x10]) (regs 0x00 0x99 0x01 0xFD 0x24 0x8000) [])) =
      some (regs 0x00 0x99 0x01 0xFD 0x24 0x8002, 4, [0x99]) := by decide

/-- 95_test_vectors.md T7. -/
theorem test_sty_rom_ignored :
    seen [] (step (machine (code 0x0 [0x8C, 0x00, 0xC0]) (regs 0x00 0x00 0x77 0xFD 0x24 0x8000) [])) =
      some (regs 0x00 0x00 0x77 0xFD 0x24 0x8003, 4, []) := by decide

/-- 95_test_vectors.md T10. -/
theorem test_tax :
    seen [] (step (machine (code 0x0 [0xAA]) (regs 0x00 0x05 0x00 0xFD 0x24 0x8000) [])) =
      some (regs 0x00 0x00 0x00 0xFD 0x26 0x8001, 2, []) := by decide

/-- 95_test_vectors.md T9. -/
theorem test_tsx :
    seen [] (step (machine (code 0x0 [0xBA]) (regs 0x00 0x00 0x00 0xFD 0x24 0x8000) [])) =
      some (regs 0x00 0xFD 0x00 0xFD 0xA4 0x8001, 2, []) := by decide

/-- 95_test_vectors.md T8. -/
theorem test_txs_no_flags :
    seen [] (step (machine (code 0x0 [0x9A]) (regs 0x00 0x00 0x00 0xFD 0x24 0x8000) [])) =
      some (regs 0x00 0x00 0x00 0x00 0x24 0x8001, 2, []) := by decide

/-- By hand from its rule. -/
theorem test_tay :
    seen [] (step (machine (code 0x0 [0xA8]) (regs 0x80 0x00 0x00 0xFD 0x24 0x8000) [])) =
      some (regs 0x80 0x00 0x80 0xFD 0xA4 0x8001, 2, []) := by decide

/-- By hand from its rule. -/
theorem test_txa_zero :
    seen [] (step (machine (code 0x0 [0x8A]) (regs 0x55 0x00 0x00 0xFD 0x24 0x8000) [])) =
      some (regs 0x00 0x00 0x00 0xFD 0x26 0x8001, 2, []) := by decide

/-- By hand from its rule. -/
theorem test_tya :
    seen [] (step (machine (code 0x0 [0x98]) (regs 0x00 0x00 0x03 0xFD 0x24 0x8000) [])) =
      some (regs 0x03 0x00 0x03 0xFD 0x24 0x8001, 2, []) := by decide

/-! ### 42_arithmetic_logic.md -/

/-- 95_test_vectors.md T13. -/
theorem test_adc_document_example :
    seen [] (step (machine (code 0x0 [0x69, 0x50]) (regs 0x50 0x00 0x00 0xFD 0x24 0x8000) [])) =
      some (regs 0xA0 0x00 0x00 0xFD 0xE4 0x8002, 2, []) := by decide

/-- 95_test_vectors.md T15. -/
theorem test_adc_overflow_carry_zero :
    seen [] (step (machine (code 0x0 [0x69, 0x80]) (regs 0x80 0x00 0x00 0xFD 0x24 0x8000) [])) =
      some (regs 0x00 0x00 0x00 0xFD 0x67 0x8002, 2, []) := by decide

/-- 95_test_vectors.md T19. -/
theorem test_sbc_overflow :
    seen [] (step (machine (code 0x0 [0xE9, 0x01]) (regs 0x80 0x00 0x00 0xFD 0x25 0x8000) [])) =
      some (regs 0x7F 0x00 0x00 0xFD 0x65 0x8002, 2, []) := by decide

/-- 95_test_vectors.md T20. -/
theorem test_sbc_borrow_in :
    seen [] (step (machine (code 0x0 [0xE9, 0x00]) (regs 0x00 0x00 0x00 0xFD 0x24 0x8000) [])) =
      some (regs 0xFF 0x00 0x00 0xFD 0xA4 0x8002, 2, []) := by decide

/-- 95_test_vectors.md T30. -/
theorem test_and_zero :
    seen [] (step (machine (code 0x0 [0x29, 0x0F]) (regs 0xF0 0x00 0x00 0xFD 0x24 0x8000) [])) =
      some (regs 0x00 0x00 0x00 0xFD 0x26 0x8002, 2, []) := by decide

/-- 95_test_vectors.md T31. -/
theorem test_ora_negative :
    seen [] (step (machine (code 0x0 [0x09, 0x80]) (regs 0x0F 0x00 0x00 0xFD 0x24 0x8000) [])) =
      some (regs 0x8F 0x00 0x00 0xFD 0xA4 0x8002, 2, []) := by decide

/-- 95_test_vectors.md T29. -/
theorem test_eor :
    seen [] (step (machine (code 0x0 [0x49, 0xFF]) (regs 0xAA 0x00 0x00 0xFD 0x24 0x8000) [])) =
      some (regs 0x55 0x00 0x00 0xFD 0x24 0x8002, 2, []) := by decide

/-- 95_test_vectors.md T24. -/
theorem test_bit_flags_from_memory :
    seen [] (step (machine (code 0x0 [0x24, 0x10]) (regs 0x01 0x00 0x00 0xFD 0x24 0x8000) [(0x10, 0xC0)])) =
      some (regs 0x01 0x00 0x00 0xFD 0xE6 0x8002, 3, []) := by decide

/-- 95_test_vectors.md T21. -/
theorem test_cmp_document_example :
    seen [] (step (machine (code 0x0 [0xC9, 0x20]) (regs 0x10 0x00 0x00 0xFD 0x24 0x8000) [])) =
      some (regs 0x10 0x00 0x00 0xFD 0xA4 0x8002, 2, []) := by decide

/-- 95_test_vectors.md T22. -/
theorem test_cmp_carry_and_negative :
    seen [] (step (machine (code 0x0 [0xC9, 0x00]) (regs 0x80 0x00 0x00 0xFD 0x24 0x8000) [])) =
      some (regs 0x80 0x00 0x00 0xFD 0xA5 0x8002, 2, []) := by decide

/-- 95_test_vectors.md T23. -/
theorem test_cpx_equal :
    seen [] (step (machine (code 0x0 [0xE0, 0x05]) (regs 0x00 0x05 0x00 0xFD 0x24 0x8000) [])) =
      some (regs 0x00 0x05 0x00 0xFD 0x27 0x8002, 2, []) := by decide

/-- 95_test_vectors.md T25. -/
theorem test_inc_wraps :
    seen [0x10] (step (machine (code 0x0 [0xE6, 0x10]) (regs 0x00 0x00 0x00 0xFD 0x24 0x8000) [(0x10, 0xFF)])) =
      some (regs 0x00 0x00 0x00 0xFD 0x26 0x8002, 5, [0x00]) := by decide

/-- 95_test_vectors.md T42. -/
theorem test_inc_page_cross_cost :
    seen [0x300] (step (machine (code 0x0 [0xFE, 0xFF, 0x02]) (regs 0x00 0x01 0x00 0xFD 0x24 0x8000) [(0x300, 0x01)])) =
      some (regs 0x00 0x01 0x00 0xFD 0x24 0x8003, 8, [0x02]) := by decide

/-- 95_test_vectors.md T26. -/
theorem test_dec_wraps :
    seen [0x201] (step (machine (code 0x0 [0xDE, 0x00, 0x02]) (regs 0x00 0x01 0x00 0xFD 0x65 0x8000) [])) =
      some (regs 0x00 0x01 0x00 0xFD 0xE5 0x8003, 7, [0xFF]) := by decide

/-- 95_test_vectors.md T28. -/
theorem test_iny_sign :
    seen [] (step (machine (code 0x0 [0xC8]) (regs 0x00 0x00 0x7F 0xFD 0x24 0x8000) [])) =
      some (regs 0x00 0x00 0x80 0xFD 0xA4 0x8001, 2, []) := by decide

/-- 95_test_vectors.md T27. -/
theorem test_dex_wraps :
    seen [] (step (machine (code 0x0 [0xCA]) (regs 0x00 0x00 0x00 0xFD 0x24 0x8000) [])) =
      some (regs 0x00 0xFF 0x00 0xFD 0xA4 0x8001, 2, []) := by decide

/-- By hand from its rule. -/
theorem test_cpy_below :
    seen [] (step (machine (code 0x0 [0xC0, 0x10]) (regs 0x00 0x00 0x0F 0xFD 0x24 0x8000) [])) =
      some (regs 0x00 0x00 0x0F 0xFD 0xA4 0x8002, 2, []) := by decide

/-- By hand from its rule. -/
theorem test_inx_wraps :
    seen [] (step (machine (code 0x0 [0xE8]) (regs 0x00 0xFF 0x00 0xFD 0x24 0x8000) [])) =
      some (regs 0x00 0x00 0x00 0xFD 0x26 0x8001, 2, []) := by decide

/-- By hand from its rule. -/
theorem test_dey_wraps :
    seen [] (step (machine (code 0x0 [0x88]) (regs 0x00 0x00 0x00 0xFD 0x24 0x8000) [])) =
      some (regs 0x00 0x00 0xFF 0xFD 0xA4 0x8001, 2, []) := by decide

/-! ### 43_shift_rotate.md -/

/-- 95_test_vectors.md T32. -/
theorem test_asl_acc :
    seen [] (step (machine (code 0x0 [0x0A]) (regs 0x80 0x00 0x00 0xFD 0x24 0x8000) [])) =
      some (regs 0x00 0x00 0x00 0xFD 0x27 0x8001, 2, []) := by decide

/-- 95_test_vectors.md T38. -/
theorem test_asl_zpx_wraps :
    seen [0x1] (step (machine (code 0x0 [0x16, 0xFF]) (regs 0x00 0x02 0x00 0xFD 0x24 0x8000) [(0x1, 0x41)])) =
      some (regs 0x00 0x02 0x00 0xFD 0xA4 0x8002, 6, [0x82]) := by decide

/-- 95_test_vectors.md T33. -/
theorem test_lsr_acc :
    seen [] (step (machine (code 0x0 [0x4A]) (regs 0x01 0x00 0x00 0xFD 0xA4 0x8000) [])) =
      some (regs 0x00 0x00 0x00 0xFD 0x27 0x8001, 2, []) := by decide

/-- 95_test_vectors.md T34. -/
theorem test_lsr_clears_n :
    seen [0x10] (step (machine (code 0x0 [0x46, 0x10]) (regs 0x00 0x00 0x00 0xFD 0xA4 0x8000) [(0x10, 0xFF)])) =
      some (regs 0x00 0x00 0x00 0xFD 0x25 0x8002, 5, [0x7F]) := by decide

/-- 95_test_vectors.md T35. -/
theorem test_rol_acc :
    seen [] (step (machine (code 0x0 [0x2A]) (regs 0x80 0x00 0x00 0xFD 0x25 0x8000) [])) =
      some (regs 0x01 0x00 0x00 0xFD 0x25 0x8001, 2, []) := by decide

/-- 95_test_vectors.md T36. -/
theorem test_ror_acc_carry_in :
    seen [] (step (machine (code 0x0 [0x6A]) (regs 0x00 0x00 0x00 0xFD 0x25 0x8000) [])) =
      some (regs 0x80 0x00 0x00 0xFD 0xA4 0x8001, 2, []) := by decide

/-- 95_test_vectors.md T37. -/
theorem test_ror_memory :
    seen [0x10] (step (machine (code 0x0 [0x66, 0x10]) (regs 0x00 0x00 0x00 0xFD 0x24 0x8000) [(0x10, 0x01)])) =
      some (regs 0x00 0x00 0x00 0xFD 0x27 0x8002, 5, [0x00]) := by decide

/-! ### 44_stack_flags.md -/

/-- 95_test_vectors.md T50. -/
theorem test_pha_sp_wraps :
    seen [0x100] (step (machine (code 0x0 [0x48]) (regs 0x42 0x00 0x00 0x00 0x24 0x8000) [])) =
      some (regs 0x42 0x00 0x00 0xFF 0x24 0x8001, 3, [0x42]) := by decide

/-- 95_test_vectors.md T39. -/
theorem test_php_pushes_bits_4_5 :
    seen [0x1fd] (step (machine (code 0x0 [0x08]) (regs 0x00 0x00 0x00 0xFD 0x24 0x8000) [])) =
      some (regs 0x00 0x00 0x00 0xFC 0x24 0x8001, 3, [0x34]) := by decide

/-- 95_test_vectors.md T51. -/
theorem test_pla_sp_wraps :
    seen [] (step (machine (code 0x0 [0x68]) (regs 0x00 0x00 0x00 0xFF 0x24 0x8000) [])) =
      some (regs 0x00 0x00 0x00 0x00 0x26 0x8001, 4, []) := by decide

/-- 95_test_vectors.md T48. -/
theorem test_plp_all_ones :
    seen [] (step (machine (code 0x0 [0x28]) (regs 0x00 0x00 0x00 0xFC 0x24 0x8000) [(0x1fd, 0xFF)])) =
      some (regs 0x00 0x00 0x00 0xFD 0xEF 0x8001, 4, []) := by decide

/-- 95_test_vectors.md T49. -/
theorem test_plp_all_zeros :
    seen [] (step (machine (code 0x0 [0x28]) (regs 0x00 0x00 0x00 0xFC 0x24 0x8000) [])) =
      some (regs 0x00 0x00 0x00 0xFD 0x20 0x8001, 4, []) := by decide

/-- 95_test_vectors.md T52. -/
theorem test_sed :
    seen [] (step (machine (code 0x0 [0xF8]) (regs 0x00 0x00 0x00 0xFD 0x24 0x8000) [])) =
      some (regs 0x00 0x00 0x00 0xFD 0x2C 0x8001, 2, []) := by decide

/-- 95_test_vectors.md T53. -/
theorem test_clv :
    seen [] (step (machine (code 0x0 [0xB8]) (regs 0x00 0x00 0x00 0xFD 0x64 0x8000) [])) =
      some (regs 0x00 0x00 0x00 0xFD 0x24 0x8001, 2, []) := by decide

/-- By hand from its rule. -/
theorem test_clc :
    seen [] (step (machine (code 0x0 [0x18]) (regs 0x00 0x00 0x00 0xFD 0x25 0x8000) [])) =
      some (regs 0x00 0x00 0x00 0xFD 0x24 0x8001, 2, []) := by decide

/-- By hand from its rule. -/
theorem test_sec :
    seen [] (step (machine (code 0x0 [0x38]) (regs 0x00 0x00 0x00 0xFD 0x24 0x8000) [])) =
      some (regs 0x00 0x00 0x00 0xFD 0x25 0x8001, 2, []) := by decide

/-- By hand from its rule. -/
theorem test_cli :
    seen [] (step (machine (code 0x0 [0x58]) (regs 0x00 0x00 0x00 0xFD 0x24 0x8000) [])) =
      some (regs 0x00 0x00 0x00 0xFD 0x20 0x8001, 2, []) := by decide

/-- By hand from its rule. -/
theorem test_sei :
    seen [] (step (machine (code 0x0 [0x78]) (regs 0x00 0x00 0x00 0xFD 0x20 0x8000) [])) =
      some (regs 0x00 0x00 0x00 0xFD 0x24 0x8001, 2, []) := by decide

/-- By hand from its rule. -/
theorem test_cld :
    seen [] (step (machine (code 0x0 [0xD8]) (regs 0x00 0x00 0x00 0xFD 0x2C 0x8000) [])) =
      some (regs 0x00 0x00 0x00 0xFD 0x24 0x8001, 2, []) := by decide

/-- By hand from its rule. -/
theorem test_nop :
    seen [] (step (machine (code 0x0 [0xEA]) (regs 0x12 0x34 0x56 0x78 0xAD 0x8000) [])) =
      some (regs 0x12 0x34 0x56 0x78 0xAD 0x8001, 2, []) := by decide

/-! ### 45_control_transfer.md -/

/-- 95_test_vectors.md T54. -/
theorem test_jmp_indirect_same_page :
    seen [] (step (machine (code 0x0 [0x6C, 0xFF, 0x02]) (regs 0x00 0x00 0x00 0xFD 0x24 0x8000) [(0x200, 0x90), (0x300, 0x80)])) =
      some (regs 0x00 0x00 0x00 0xFD 0x24 0x9000, 5, []) := by decide

/-- 95_test_vectors.md T55. -/
theorem test_jsr :
    seen [0x1fd, 0x1fc] (step (machine (code 0x0 [0x20, 0x10, 0x80]) (regs 0x00 0x00 0x00 0xFD 0x24 0x8000) [])) =
      some (regs 0x00 0x00 0x00 0xFB 0x24 0x8010, 6, [0x80, 0x02]) := by decide

/-- 95_test_vectors.md T56. -/
theorem test_rts :
    seen [] (step (machine (code 0x0 [0x60]) (regs 0x00 0x00 0x00 0xFB 0x24 0x8000) [(0x1fc, 0x02), (0x1fd, 0x80)])) =
      some (regs 0x00 0x00 0x00 0xFD 0x24 0x8003, 6, []) := by decide

/-- 95_test_vectors.md T43. -/
theorem test_bcs_not_taken_other_page :
    seen [] (step (machine (code 0xf0 [0xB0, 0x20]) (regs 0x00 0x00 0x00 0xFD 0x24 0x80f0) [])) =
      some (regs 0x00 0x00 0x00 0xFD 0x24 0x80F2, 3, []) := by decide

/-- 95_test_vectors.md T44. -/
theorem test_bcc_taken_other_page :
    seen [] (step (machine (code 0xf0 [0x90, 0x20]) (regs 0x00 0x00 0x00 0xFD 0x24 0x80f0) [])) =
      some (regs 0x00 0x00 0x00 0xFD 0x24 0x8112, 4, []) := by decide

/-- 95_test_vectors.md T45. -/
theorem test_bne_taken :
    seen [] (step (machine (code 0x5 [0xD0, 0xFB]) (regs 0x00 0x00 0x00 0xFD 0x24 0x8005) [])) =
      some (regs 0x00 0x00 0x00 0xFD 0x24 0x8002, 3, []) := by decide

/-- 95_test_vectors.md T46. -/
theorem test_beq_not_taken :
    seen [] (step (machine (code 0x0 [0xF0, 0x05]) (regs 0x00 0x00 0x00 0xFD 0x24 0x8000) [])) =
      some (regs 0x00 0x00 0x00 0xFD 0x24 0x8002, 2, []) := by decide

/-- 95_test_vectors.md T59. -/
theorem test_beq_backward_across_page :
    seen [] (step (machine (code 0x0 [0xF0, 0x80]) (regs 0x00 0x00 0x00 0xFD 0x26 0x8000) [])) =
      some (regs 0x00 0x00 0x00 0xFD 0x26 0x7F82, 4, []) := by decide

/-- 95_test_vectors.md T60. -/
theorem test_bmi_to_itself :
    seen [] (step (machine (code 0x0 [0x30, 0xFE]) (regs 0x00 0x00 0x00 0xFD 0xA4 0x8000) [])) =
      some (regs 0x00 0x00 0x00 0xFD 0xA4 0x8000, 3, []) := by decide

/-- 95_test_vectors.md T57. -/
theorem test_brk :
    seen [0x1fd, 0x1fc, 0x1fb] (step (machine (code 0x0 [0x00] ++ [(0x3FFF, 0x90)]) (regs 0x00 0x00 0x00 0xFD 0x24 0x8000) [])) =
      some (regs 0x00 0x00 0x00 0xFA 0x24 0x9000, 7, [0x80, 0x02, 0x34]) := by decide

/-- 95_test_vectors.md T58. -/
theorem test_rti :
    seen [] (step (machine (code 0x0 [0x40]) (regs 0x00 0x00 0x00 0xFA 0x24 0x8000) [(0x1fb, 0x34), (0x1fc, 0x02), (0x1fd, 0x80)])) =
      some (regs 0x00 0x00 0x00 0xFD 0x24 0x8002, 6, []) := by decide

/-- By hand from its rule. -/
theorem test_jmp_absolute :
    seen [] (step (machine (code 0x0 [0x4C, 0x05, 0x80]) (regs 0x00 0x00 0x00 0xFD 0x24 0x8000) [])) =
      some (regs 0x00 0x00 0x00 0xFD 0x24 0x8005, 3, []) := by decide

/-- By hand from its rule. -/
theorem test_bpl_backward_across_page :
    seen [] (step (machine (code 0x0 [0x10, 0xFA]) (regs 0x00 0x00 0x00 0xFD 0x24 0x8000) [])) =
      some (regs 0x00 0x00 0x00 0xFD 0x24 0x7FFC, 4, []) := by decide

/-- By hand from its rule. -/
theorem test_bvc_taken :
    seen [] (step (machine (code 0x0 [0x50, 0x05]) (regs 0x00 0x00 0x00 0xFD 0x24 0x8000) [])) =
      some (regs 0x00 0x00 0x00 0xFD 0x24 0x8007, 3, []) := by decide

/-- By hand from its rule. -/
theorem test_bvs_not_taken :
    seen [] (step (machine (code 0x0 [0x70, 0x05]) (regs 0x00 0x00 0x00 0xFD 0x24 0x8000) [])) =
      some (regs 0x00 0x00 0x00 0xFD 0x24 0x8002, 2, []) := by decide

/-! ### 46_unofficial.md -/

/-- 95_test_vectors.md T61. -/
theorem test_lax :
    seen [] (step (machine (code 0x0 [0xA7, 0x10]) (regs 0x00 0x00 0x00 0xFD 0x24 0x8000) [(0x10, 0x8F)])) =
      some (regs 0x8F 0x8F 0x00 0xFD 0xA4 0x8002, 3, []) := by decide

/-- 95_test_vectors.md T62. -/
theorem test_sax :
    seen [0x20] (step (machine (code 0x0 [0x87, 0x20]) (regs 0xF0 0x3C 0x00 0xFD 0x24 0x8000) [])) =
      some (regs 0xF0 0x3C 0x00 0xFD 0x24 0x8002, 3, [0x30]) := by decide

/-- 95_test_vectors.md T63. -/
theorem test_dcp_equal :
    seen [0x30] (step (machine (code 0x0 [0xC7, 0x30]) (regs 0x10 0x00 0x00 0xFD 0x24 0x8000) [(0x30, 0x11)])) =
      some (regs 0x10 0x00 0x00 0xFD 0x27 0x8002, 5, [0x10]) := by decide

/-- 95_test_vectors.md T71. -/
theorem test_dcp_aby_cost :
    seen [0x300] (step (machine (code 0x0 [0xDB, 0xFF, 0x02]) (regs 0x00 0x00 0x01 0xFD 0x24 0x8000) [])) =
      some (regs 0x00 0x00 0x01 0xFD 0x24 0x8003, 8, [0xFF]) := by decide

/-- 95_test_vectors.md T64. -/
theorem test_isb :
    seen [0x30] (step (machine (code 0x0 [0xE7, 0x30]) (regs 0x10 0x00 0x00 0xFD 0x25 0x8000) [(0x30, 0x0F)])) =
      some (regs 0x00 0x00 0x00 0xFD 0x27 0x8002, 5, [0x10]) := by decide

/-- 95_test_vectors.md T65. -/
theorem test_slo :
    seen [0x40] (step (machine (code 0x0 [0x07, 0x40]) (regs 0x01 0x00 0x00 0xFD 0x24 0x8000) [(0x40, 0x41)])) =
      some (regs 0x83 0x00 0x00 0xFD 0xA4 0x8002, 5, [0x82]) := by decide

/-- 95_test_vectors.md T66. -/
theorem test_rla :
    seen [0x40] (step (machine (code 0x0 [0x27, 0x40]) (regs 0xFF 0x00 0x00 0xFD 0x25 0x8000) [(0x40, 0x40)])) =
      some (regs 0x81 0x00 0x00 0xFD 0xA4 0x8002, 5, [0x81]) := by decide

/-- 95_test_vectors.md T67. -/
theorem test_sre :
    seen [0x40] (step (machine (code 0x0 [0x47, 0x40]) (regs 0x0F 0x00 0x00 0xFD 0x24 0x8000) [(0x40, 0x1F)])) =
      some (regs 0x00 0x00 0x00 0xFD 0x27 0x8002, 5, [0x0F]) := by decide

/-- 95_test_vectors.md T68. -/
theorem test_rra :
    seen [0x40] (step (machine (code 0x0 [0x67, 0x40]) (regs 0x10 0x00 0x00 0xFD 0x24 0x8000) [(0x40, 0x03)])) =
      some (regs 0x12 0x00 0x00 0xFD 0x24 0x8002, 5, [0x01]) := by decide

/-- 95_test_vectors.md T47. -/
theorem test_nop_abx_page_cost :
    seen [] (step (machine (code 0x0 [0x1C, 0xFF, 0x12]) (regs 0x00 0x01 0x00 0xFD 0x24 0x8000) [])) =
      some (regs 0x00 0x01 0x00 0xFD 0x24 0x8003, 5, []) := by decide

/-- 95_test_vectors.md T70. -/
theorem test_nop_imm :
    seen [] (step (machine (code 0x0 [0x80, 0xFF]) (regs 0x00 0x00 0x00 0xFD 0x24 0x8000) [])) =
      some (regs 0x00 0x00 0x00 0xFD 0x24 0x8002, 2, []) := by decide

/-- 95_test_vectors.md T69. -/
theorem test_sbc_alias :
    seen [] (step (machine (code 0x0 [0xEB, 0x01]) (regs 0x10 0x00 0x00 0xFD 0x25 0x8000) [])) =
      some (regs 0x0F 0x00 0x00 0xFD 0x25 0x8002, 2, []) := by decide

/-! ### The reserved encodings -/

/-- 95_test_vectors.md T86, for each of the 25 bytes of 30_encoding.md R106. -/
theorem test_reserved_stop :
    reservedOpcodes.all (fun op => stopOf (step (at8000 [op])) == some (op, 0x8001)) = true := by decide

/-! ### Interrupts (95_test_vectors.md 2.2) -/

/-- The interrupt vectors of section 2.2 and an instruction at each handler. -/
def handlers (nmi irq : List Byte) : Memory :=
  code 0x1000 nmi ++ code 0x2000 irq ++ code 0x3FFA [0x00, 0x90, 0x00, 0x00, 0x00, 0xA0]

/-- 95_test_vectors.md T80. -/
theorem test_nmi_while_masked :
    let s := { machine (handlers [0xEA] []) (regs 0 0 0 0xFD 0xE5 0x8123) [] with nmiLatch := true }
    seen [0x1FD, 0x1FC, 0x1FB] (step s) = some (regs 0 0 0 0xFA 0xE5 0x9001, 2, [0x81, 0x23, 0xE5]) ∧
    (nextOr s (step s)).nmiLatch = false := by decide

/-- 95_test_vectors.md T81. -/
theorem test_irq_masked :
    let s := { machine (code 0 [0xEA] ++ handlers [] []) regs0 [] with irqLatch := true }
    seen [] (step s) = some (regs 0 0 0 0xFD 0x24 0x8001, 2, []) ∧ (nextOr s (step s)).irqLatch = true := by decide

/-- 95_test_vectors.md T82. -/
theorem test_irq_taken :
    let s := { machine (handlers [] [0xA9, 0x01]) (regs 0 0 0 0xFD 0x20 0x8000) [] with irqLatch := true }
    seen [0x1FD, 0x1FC, 0x1FB] (step s) = some (regs 0x01 0 0 0xFA 0x24 0xA002, 2, [0x80, 0x00, 0x20]) ∧
    (nextOr s (step s)).irqLatch = false := by decide

/-- 95_test_vectors.md T83. -/
theorem test_nmi_before_irq :
    let s := { machine (handlers [0xEA] []) (regs 0 0 0 0xFD 0x20 0x8000) [] with nmiLatch := true, irqLatch := true }
    seen [0x1FB] (step s) = some (regs 0 0 0 0xFA 0x24 0x9001, 2, [0x20]) ∧
    (nextOr s (step s)).nmiLatch = false ∧ (nextOr s (step s)).irqLatch = true := by decide

/-- 95_test_vectors.md T85. -/
theorem test_entry_wraps_the_stack :
    seen [0x101, 0x100, 0x1FF]
      (step { machine (handlers [0xEA] []) (regs 0 0 0 0x01 0x24 0x8000) [] with nmiLatch := true }) =
      some (regs 0 0 0 0xFE 0x24 0x9001, 2, [0x80, 0x00, 0x24]) := by decide

/-! ### The bus (95_test_vectors.md 2.3) -/

/-- 95_test_vectors.md T90, T91. -/
theorem test_ram_mirrors :
    let s := busWrite 0x0000 0x5A State.reset
    [0x0000#16, 0x0800#16, 0x1000#16, 0x1800#16].map s.peek = [0x5A, 0x5A, 0x5A, 0x5A] ∧
    (busWrite 0x1FFF 0x77 State.reset).ram = [(0x7FF, 0x77)] := by decide

/-- 95_test_vectors.md T93, T94. -/
theorem test_rom_mirror :
    let s := machine [(0x1234, 0xCD)] regs0 []
    let t := { s with cart := { s.cart with prgSize := .k32, prg := [(0x1234, 0xCD), (0x5234, 0xEF)] } }
    s.peek 0x9234 = 0xCD ∧ s.peek 0xD234 = 0xCD ∧ t.peek 0x9234 = 0xCD ∧ t.peek 0xD234 = 0xEF ∧
    (busWrite 0x9234 0x11 s).peek 0x9234 = 0xCD := by decide

/-- 95_test_vectors.md T92, T95. -/
theorem test_io_range :
    let s := busWrite 0x4000 0x30 (busWrite 0x4015 0x0F (busWrite 0x4017 0x01 State.reset))
    [0x2000#16, 0x2008#16, 0x4014#16, 0x4015#16, 0x5000#16].map State.reset.peek = [0, 0, 0, 0, 0] ∧
    s.port2.strobe = true ∧ s.port1.strobe = false ∧ s.out.audioWrites = [(0x4015, 0x0F), (0x4000, 0x30)] := by decide

/-! ### The PPU's registers (95_test_vectors.md 2.4) -/

/-- Writes to one address in turn. -/
def writes (a : Addr) (vs : List Byte) (s : State) : State := vs.foldl (fun t v => busWrite a v t) s

/-- 95_test_vectors.md T100. -/
theorem test_scroll :
    let s := writes 0x2005 [0x11, 0x22, 0x33] State.reset
    let t := writes 0x2005 [0x44] (busRead 0x2002 s).2
    (s.ppu.scrollX, s.ppu.scrollY, s.ppu.scrollToggle) = (0x33, 0x22, true) ∧
    (t.ppu.scrollX, t.ppu.scrollY, t.ppu.scrollToggle) = (0x44, 0x22, true) := by decide

/-- 95_test_vectors.md T101. -/
theorem test_oam_data :
    let s := writes 0x2004 [0xA1, 0xA2, 0xA3] (busWrite 0x2003 0xFE State.reset)
    s.ppu.oam = [(0x00, 0xA3), (0xFE, 0xA1), (0xFF, 0xA2)] ∧ s.ppu.oamAddr = 0x01 ∧
    busRead 0x2004 s = (0x00, s) := by decide

/-- 95_test_vectors.md T103, T104. -/
theorem test_vram_write :
    let s := writes 0x2007 [0x01, 0x02] (writes 0x2006 [0x20, 0x00] (busWrite 0x2000 0x04 State.reset))
    let t := writes 0x2007 [0x88] (writes 0x2006 [0x60, 0x00] (writes 0x2007 [0x99] (writes 0x2006 [0x30, 0x00] State.reset)))
    s.ppu.vram = [(0x000, 0x01), (0x020, 0x02)] ∧ s.ppu.vramAddr = 0x2040 ∧
    t.ppu.vram = [(0x000, 0x88)] ∧ t.ppu.vramAddr = 0x6001 ∧
    (writes 0x2007 [0x12] (writes 0x2006 [0x00, 0x10] t)).ppu.pat = [(0x010, 0x12)] := by decide

/-- 95_test_vectors.md T105. -/
theorem test_vram_read_buffer :
    let s := writes 0x2006 [0x20, 0x00] (withPpu fun p => { p with vram := [(0, 0xA0), (1, 0xA1), (2, 0xA2)], pal := [(1, 0x3C)] })
    let r1 := busRead 0x2007 s
    let r2 := busRead 0x2007 r1.2
    let r3 := busRead 0x2007 r2.2
    let r4 := busRead 0x2007 (writes 0x2006 [0x3F, 0x01] r3.2)
    let r5 := busRead 0x2007 (writes 0x2006 [0x20, 0x00] r4.2)
    [r1.1, r2.1, r3.1, r4.1, r5.1] = [0x00, 0xA0, 0xA1, 0x3C, 0xA2] ∧ r3.2.ppu.vramAddr = 0x2003 ∧
    r4.2.ppu.readBuf = 0xA2 ∧ r5.2.ppu.readBuf = 0xA0 := by decide

/-- 95_test_vectors.md T102: writes and reads at four of its addresses. -/
theorem test_palette_mirror :
    let s := writes 0x2007 [0x30, 0x31] (writes 0x2006 [0x3F, 0x10] (writes 0x2007 [0x24] (writes 0x2006 [0x3F, 0x04]
      (writes 0x2007 [0x20] (writes 0x2006 [0x3F, 0x00] State.reset)))))
    s.ppu.pal = [(0x00, 0x30), (0x04, 0x24), (0x11, 0x31)] ∧
    [0x00, 0x04, 0x10, 0x11, 0x14].map (palRead s.ppu.pal) = [0x30, 0x30, 0x30, 0x31, 0x24] := by decide

/-- 95_test_vectors.md T106. -/
theorem test_status_read :
    let s := { withPpu (fun p => { p with vblank := true, sprite0Hit := true, scrollToggle := true, addrToggle := true }) with
      nmiLatch := true }
    let r := busRead 0x2002 s
    (r.1, (busRead 0x2002 r.2).1) = (0xC0, 0x40) ∧ r.2.ppu.vblank = false ∧ r.2.ppu.scrollToggle = false ∧
    r.2.ppu.addrToggle = true ∧ r.2.nmiLatch = true := by decide

/-! ### The scanline machine (95_test_vectors.md 2.5), each from just before the moment in question -/

/-- 95_test_vectors.md T111, T112: the start of vertical blank, with and without the enable bit. -/
theorem test_vblank :
    let s := ppuRun 1 (withPpu fun p => { p with line := 240, dot := 340 })
    let t := ppuRun 1 (withPpu fun p => { p with line := 240, dot := 340, ctrl := 0x80 })
    (s.ppu.line, s.ppu.dot, s.ppu.vblank, s.nmiLatch) = (241, 0, true, false) ∧
    (t.ppu.vblank, t.nmiLatch) = (true, true) := by decide

/-- 95_test_vectors.md T112: the rollover. -/
theorem test_rollover :
    let s := ppuRun 1 { withPpu (fun p => { p with line := 261, dot := 340, ctrl := 0x80, vblank := true }) with nmiLatch := true }
    (s.ppu.line, s.ppu.dot, s.ppu.vblank, s.nmiLatch, s.out.frames.length) = (0, 0, false, false, 1) := by decide

/-- 95_test_vectors.md T113, T114. -/
theorem test_sprite_zero :
    let s := ppuRun 341 (withPpu fun p => { p with line := 30, oam := [(0, 0x1E)], mask := 0x18 })
    (s.ppu.sprite0Hit, s.peek 0x2002) = (true, 0x40) ∧
    (ppuRun 341 (withPpu fun p => { p with line := 30, oam := [(0, 0x1E)], mask := 0x08 })).ppu.sprite0Hit = false ∧
    (ppuRun 341 (withPpu fun p => { p with line := 29, oam := [(0, 0x1E)], mask := 0x18 })).ppu.sprite0Hit = false := by
  decide

/-- The memories of 95_test_vectors.md T115. -/
def t115 (line : Nat) (scrollX scrollY ctrl : Byte) (horizontal : Bool) : State :=
  let s := withPpu fun p => { p with
    line := line, mask := 0x08, scrollX := scrollX, scrollY := scrollY, ctrl := ctrl
    vram := [(0x000, 0x01), (0x002, 0x01), (0x040, 0x01), (0x3C0, 0xE4), (0x400, 0x02), (0x7C0, 0x03)]
    pat := [(0x010, 0x80), (0x018, 0xC0)] }
  { s with cart := { s.cart with horizontalMirror := horizontal } }

/-- The palette id and the first row of tile `k`. -/
def tileOf (s : State) (k : Nat) : Option (BitVec 2 × List (BitVec 2)) :=
  (s.ppu.background[k]?).map fun t => (t.paletteId, t.pattern[0].toList)

/-- 95_test_vectors.md T115: tiles 0, 1, 2 and 32 of the first band, and tile 0 of the third. -/
theorem test_background_band :
    let s := ppuRun 341 (t115 7 0x00 0x00 0x00 false)
    s.ppu.background.length = 33 ∧
    [0, 1, 2, 32].map (tileOf s) = [some (0, [3, 2, 0, 0, 0, 0, 0, 0]), some (0, [0, 0, 0, 0, 0, 0, 0, 0]),
      some (1, [3, 2, 0, 0, 0, 0, 0, 0]), some (3, [0, 0, 0, 0, 0, 0, 0, 0])] ∧
    tileOf (ppuRun 341 (t115 23 0x00 0x00 0x00 false)) 0 = some (2, [3, 2, 0, 0, 0, 0, 0, 0]) := by decide

/-- 95_test_vectors.md T116, T117, T118. -/
theorem test_background_scroll :
    tileOf (ppuRun 341 (t115 7 0x08 0x00 0x00 false)) 31 = some (3, [0, 0, 0, 0, 0, 0, 0, 0]) ∧
    tileOf (ppuRun 341 (t115 7 0x08 0x00 0x00 true)) 31 = some (0, [3, 2, 0, 0, 0, 0, 0, 0]) ∧
    tileOf (ppuRun 341 (t115 7 0x00 0x00 0x01 false)) 32 = some (0, [3, 2, 0, 0, 0, 0, 0, 0]) ∧
    (ppuRun 341 (t115 7 0x00 0xF1 0x00 false)).ppu.background = [] := by decide

/-- 95_test_vectors.md T120: sprites 0 and 1 of the list built at a rollover. -/
theorem test_sprites :
    let s := ppuRun 341 (withPpu fun p => { p with
      line := 261, oam := [(0, 0x03), (1, 0x01), (2, 0x40), (3, 0x50), (4, 0x10), (5, 0x02), (6, 0x01), (7, 0x60)]
      pat := [(0x0010, 0x80), (0x0018, 0xC0), (0x1020, 0x01)] })
    (s.ppu.sprites.take 2).map (fun t => (t.x, t.y, t.attr, t.id, t.pattern[0].toList)) =
      [(0x50, 0xFB, 0x40, 0x01, [3, 2, 0, 0, 0, 0, 0, 0]), (0x60, 0x08, 0x01, 0x02, [0, 0, 0, 0, 0, 0, 0, 0])] := by decide

/-! ### DMA and controllers (95_test_vectors.md 2.6) -/

/-- 95_test_vectors.md T121, with three bytes of its page: 2 cycles of the CPU step, 516 of the system step. -/
theorem test_dma :
    let s := { at8000 [0xEA] with ram := [(0x200, 0xFF), (0x210, 0xEF), (0x2FE, 0x01)] }
    let d := busWrite 0x4014 0x0A (busWrite 0x2003 0xF0 s)
    let t := nextOr d (step d)
    (d.dma.pending, d.dma.page, d.ppu.oam) = (true, 0x0A, []) ∧
    (t.out.cycles, t.out.audioTick, t.dma.pending, t.ppu.oamAddr, t.ppu.line, t.ppu.dot) = (2, 516, false, 0xF0, 4, 184) ∧
    [0xF0, 0x00, 0xEE, 0xEF].map t.ppu.oam.read = [0xFF, 0xEF, 0x01, 0x00] := by decide +kernel

/-- 95_test_vectors.md T122: the first, the third and the ninth read, and the other port. -/
theorem test_controller :
    let s := { State.reset with
      buttons1 := #v[true, true, false, false, false, false, false, true]
      buttons2 := #v[false, true, false, false, false, false, false, false] }
    let p := busWrite 0x4016 0x00 (applyInput (busWrite 0x4016 0x01 s) (.keyDown .one 2))
    [0, 2, 8].map (fun n => (busRead 0x4016 (afterReads n 0x4016 p)).1) = [0x01, 0x00, 0x01] ∧
    (busRead 0x4017 p).1 = 0x00 ∧
    (busRead 0x4017 (afterReads 1 0x4017 (busWrite 0x4017 0x00 (busWrite 0x4017 0x01 p)))).1 = 0x01 := by decide

/-! ### Witnesses: for each statement with hypotheses, a state and operands that meet them, clause by clause -/

theorem witness_DecodeAfterEncode :
    Instr.wellFormed (.jmpInd 0xFFFF) = true ∧ Instr.wellFormed (.nopUnofficial 0xFC (.mem (.abx 0x00FF))) = true := by decide

theorem witness_EncodeAfterDecode : decode [0xFF, 0x00, 0xFF, 0x02] = .ok (.isb (.abx 0xFF00)) [0x02] := by decide

/-- Programs in ROM and in RAM: an instruction that completes, one that stops. -/
theorem witness_StepRunsDecodedInstruction :
    (∀ k, k < 3 → IsMemory (addrPlus (0x8000#16) k)) ∧ IsMemory 0x1FFF ∧
    (let u := serviceInterrupt (runDma (beginStep (at8000 [0xAD, 0x00, 0x02])))
     u.cpu.pc = 0x8000 ∧ decode [u.peek 0x8000, u.peek 0x8001, u.peek 0x8002] = .ok (.lda (.mem (.abs 0x0200))) []) ∧
    completes (step (at8000 [0xAD, 0x00, 0x02])) = true ∧
    (let s := machine [] (regs 0 0 0 0xFD 0x24 0x1FFF) [(0x7FF, 0x02)]
     decode [s.peek 0x1FFF, s.peek 0x2000, s.peek 0x2001] = .ok (.kil 0x02) [0x00, 0x00] ∧
     stopOf (step s) = some (0x02, 0x2000)) := by
  refine ⟨fun k hk => ?_, .inl (by decide), by decide, by decide, by decide⟩
  right
  rw [addrPlus, BitVec.toNat_add]
  rcases k with _ | _ | _ | k
  · decide
  · decide
  · decide
  · omega

theorem witness_FetchGoesThroughTheBus :
    opcodeLength (busRead 0x8000 (at8000 [0xEA])).1 = 1 ∧ opcodeLength (busRead 0x8000 (at8000 [0xA9])).1 = 2 ∧
    opcodeLength (busRead 0x8000 (at8000 [0x4C])).1 = 3 := by decide

theorem witness_StepStopsExactlyOnReserved :
    (busRead 0x8000 (serviceInterrupt (runDma (beginStep (at8000 [0xBB]))))).1 ∈ reservedOpcodes ∧
    (busRead 0x8000 (serviceInterrupt (runDma (beginStep (at8000 [0xEA]))))).1 ∉ reservedOpcodes := by decide

/-- 95_test_vectors.md T13 and T14 for ADC, T18 and T19 for SBC: each flag set and not set. -/
theorem witness_OverflowIsSignedOverflow :
    let add := fun a m p => (nextOr State.reset (exec (.adc (.imm m)) (machine [] (regs a 0 0 0xFD p 0x8000) []))).cpu.p
    let sub := fun a m p => (nextOr State.reset (exec (.sbc (.imm m)) (machine [] (regs a 0 0 0xFD p 0x8000) []))).cpu.p
    (add 0x50 0x50 0x24, add 0xFF 0x00 0x25, sub 0x00 0x01 0x25, sub 0x80 0x01 0x25) = (0xE4, 0x27, 0xA4, 0x65) := by decide

theorem witness_DecimalFlagHasNoEffect :
    completes (exec (.adc (.imm 0x01)) (machine [] (regs 0x09 0 0 0xFD 0x2C 0x8000) [])) = true ∧
    completes (exec (.sbc (.imm 0x01)) State.reset) = true ∧ completes (exec (.sbcAlias 0x01) State.reset) = true ∧
    completes (exec (.isb (.zp 0x10)) State.reset) = true ∧ completes (exec (.rra (.abs 0x2007)) State.reset) = true := by
  decide

theorem witness_ReturnsUndoCallsAndEntries : { State.reset with nmiLatch := true }.nmiLatch = true := by decide

theorem witness_CycleFormula :
    Instr.opcode (.sta (.abx 0x12F0)) = some 0x9D ∧ completes (exec (.sta (.abx 0x12F0)) State.reset) = true ∧
    branchTaken (.bne 0xFB) 0x24 = some true ∧ Instr.opcode (.bne 0xFB) = some 0xD0 ∧
    completes (exec (.bne 0xFB) State.reset) = true := by decide

/-- A stored byte, its mirror, another byte, and a store to a PPU register and to none. -/
theorem witness_MemoryChangesOnlyWhereStored :
    storedAt (.sta (.abs 0x0800)) State.reset = [0x0800] ∧ completes (exec (.sta (.abs 0x0800)) State.reset) = true ∧
    SameRamByte 0x0800 0x1800 ∧ IsMemory 0x1FFF ∧ ¬ SameRamByte 0x0800 0x1FFF ∧ IsMemory 0x8000 ∧
    ¬ SameRamByte 0x0800 0x8000 ∧ ¬ IsPpuAddr 0x0800 ∧ IsPpuAddr 0x2007 := by
  refine ⟨by decide, by decide, ⟨by decide, by decide, by decide⟩, .inl (by decide), fun h => ?_, .inr (by decide),
    fun h => absurd h.2.1 (by decide), fun h => absurd h.1 (by decide), by decide, by decide⟩
  exact absurd h.2.2 (by decide)

theorem witness_InstructionsLeaveTheRestAlone :
    storedAt (.lda (.mem (.abs 0x2007))) State.reset = [] ∧ completes (exec (.lda (.mem (.abs 0x2007))) State.reset) = true ∧
    completes (exec (.sta (.abs 0x2007)) State.reset) = true := by decide

/-- A machine with something at both ends of every range of the CPU's address map. -/
def wBus : State :=
  { State.reset with
    ram := [(0x000, 0x01), (0x7FF, 0x02)]
    cart := { Cartridge.blank with prg := [(0x0000, 0x03), (0x3FFF, 0x04)] }
    ppu := { State.reset.ppu with vblank := true, readBuf := 0x05 }
    port1 := { strobe := false, shift := Vector.replicate 8 true, index := 7 }
    port2 := { strobe := false, shift := Vector.replicate 8 true, index := 7 } }

/-- The first and the last address of each row of 20_memory.md R61. -/
theorem witness_ReadRouting :
    [0x0000#16, 0x07FF#16, 0x0800#16, 0x1FFF#16].map wBus.peek = [0x01, 0x02, 0x01, 0x02] ∧
    [0x2000#16, 0x2002#16, 0x2007#16, 0x3FFF#16].map wBus.peek = [0x00, 0x80, 0x05, 0x05] ∧
    [0x4014#16, 0x4016#16, 0x4017#16].map wBus.peek = [0x00, 0x01, 0x01] ∧
    [0x4000#16, 0x4013#16, 0x4015#16, 0x4018#16, 0x401F#16].map wBus.peek = [0x00, 0x00, 0x00, 0x00, 0x00] ∧
    [0x8000#16, 0xBFFF#16, 0xC000#16, 0xFFFF#16].map wBus.peek = [0x03, 0x04, 0x03, 0x04] ∧
    [0x4020#16, 0x7FFF#16].map wBus.peek = [0x00, 0x00] := by decide

theorem witness_WriteRouting :
    [0x0000#16, 0x07FF#16, 0x0800#16, 0x1FFF#16].map (fun a => (busWrite a 0xAA State.reset).ram) =
      [[(0x000, 0xAA)], [(0x7FF, 0xAA)], [(0x000, 0xAA)], [(0x7FF, 0xAA)]] ∧
    (busWrite 0x2000 0xAA State.reset).ppu.ctrl = 0xAA ∧ (busWrite 0x3FF9 0xAA State.reset).ppu.mask = 0xAA ∧
    (busWrite 0x4014 0xAA State.reset).dma = { pending := true, page := 0xAA } ∧
    (busWrite 0x4016 0x01 State.reset).port1.strobe = true ∧ (busWrite 0x4017 0x01 State.reset).port2.strobe = true ∧
    [0x4000#16, 0x4013#16, 0x4015#16, 0x4018#16, 0x401F#16].map (fun a => (busWrite a 0xAA State.reset).out.audioWrites) =
      [[(0x4000, 0xAA)], [(0x4013, 0xAA)], [(0x4015, 0xAA)], [(0x4018, 0xAA)], [(0x401F, 0xAA)]] ∧
    [0x4020#16, 0x7FFF#16, 0x8000#16, 0xFFFF#16].map (fun a => (busWrite a 0xAA wBus).peek a) = [0x00, 0x00, 0x03, 0x04] := by
  decide

theorem witness_WriteRouting_mirror : SameRamByte 0x07FF 0x1FFF ∧ ¬ SameRamByte 0x07FF 0x0000 :=
  ⟨⟨by decide, by decide, by decide⟩, fun h => absurd h.2.2 (by decide)⟩

theorem witness_ReadsAreIdempotent :
    (busRead 0x2002 wBus).2.ppu.vblank = false ∧ (busRead 0x3FFA wBus).2.ppu.vblank = false ∧
    (busRead 0x2007 wBus).2.ppu.vramAddr = 0x0001 ∧ (busRead 0x3FFF wBus).2.ppu.vramAddr = 0x0001 ∧
    (busRead 0x4016 wBus).2.port1.index = 0 ∧ (busRead 0x4017 wBus).2.port2.index = 0 ∧
    (busRead 0x2004 wBus).2 = wBus ∧ (busRead 0x1FFF wBus).2 = wBus ∧ (busRead 0x4015 wBus).2 = wBus := by decide

theorem witness_NmiEntry :
    let s := { State.reset with nmiLatch := true, irqLatch := true }
    s.nmiLatch = true ∧ s.irqLatch = true ∧ (serviceInterrupt s).nmiLatch = false := by decide

theorem witness_IrqEntryWhenNotMasked :
    let taken := { State.reset with irqLatch := true, cpu := regs 0 0 0 0x00 0x20 0x8000 }
    let held := { State.reset with irqLatch := true }
    (taken.nmiLatch, taken.irqLatch, taken.flag .i, (serviceInterrupt taken).cpu.sp) = (false, true, false, 0xFD) ∧
    (held.nmiLatch, held.irqLatch, held.flag .i, (serviceInterrupt held).cpu.sp) = (false, true, true, 0xFD) ∧
    (State.reset.nmiLatch, State.reset.irqLatch) = (false, false) := by decide

/-- Each register offset at the first eight and the last eight addresses. -/
theorem witness_PpuPlainRegisters :
    [0x2000#16, 0x2001#16, 0x2003#16, 0x2005#16, 0x2002#16, 0x2004#16].map (fun a => (a.toNat - 0x2000) % 8) = [0, 1, 3, 5, 2, 4] ∧
    [0x3FF8#16, 0x3FF9#16, 0x3FFB#16, 0x3FFD#16, 0x3FFA#16, 0x3FFC#16].map (fun a => (a.toNat - 0x2000) % 8) = [0, 1, 3, 5, 2, 4] ∧
    IsPpuAddr 0x2000 ∧ IsPpuAddr 0x3FFD ∧ State.reset.ppu.scrollToggle = false ∧
    (busWrite 0x2005 0x11 State.reset).ppu.scrollToggle = true :=
  ⟨by decide, by decide, ⟨by decide, by decide⟩, ⟨by decide, by decide⟩, by decide, by decide⟩

theorem witness_PpuDataWrites :
    [0x2002#16, 0x2004#16, 0x2006#16, 0x3FFF#16].map (fun a => (a.toNat - 0x2000) % 8) = [2, 4, 6, 7] ∧
    IsPpuAddr 0x2002 ∧ IsPpuAddr 0x3FFF ∧ State.reset.ppu.addrToggle = false ∧
    (busWrite 0x2006 0x3F State.reset).ppu.addrToggle = true ∧ bit (busWrite 0x2000 0x04 State.reset).ppu.ctrl 2 = true :=
  ⟨by decide, ⟨by decide, by decide⟩, ⟨by decide, by decide⟩, by decide, by decide, by decide⟩

/-- Addresses at both sides of 0x3F00. -/
theorem witness_PpuReadsWithEffects :
    let s := fun a : Addr => withPpu fun p => { p with vramAddr := a }
    IsPpuAddr 0x2007 ∧ IsPpuAddr 0x3FFF ∧
    [0x2000#16, 0x2001#16, 0x2002#16, 0x3FFB#16, 0x3FFD#16, 0x3FFE#16, 0x3FFF#16].map (fun a => (a.toNat - 0x2000) % 8) =
      [0, 1, 2, 3, 5, 6, 7] ∧
    (s 0x3EFE).ppu.vramAddr.toNat % 0x4000 < 0x3F00 ∧ (busRead 0x2007 (s 0x3EFE)).2.ppu.vramAddr.toNat % 0x4000 < 0x3F00 ∧
    0x3F00 ≤ (s 0x3F00).ppu.vramAddr.toNat % 0x4000 ∧ 0x3F00 ≤ (s 0xFFFF).ppu.vramAddr.toNat % 0x4000 :=
  ⟨⟨by decide, by decide⟩, ⟨by decide, by decide⟩, by decide, by decide, by decide, by decide, by decide⟩

/-- Addresses at both ends of each row of the PPU bus, and what a read of them names after three writes. -/
theorem witness_PpuBusRoutingAndPaletteMirrors :
    [0x0000#16, 0x5FFF#16, 0x2000#16, 0x2FFF#16, 0x3000#16, 0x3EFF#16, 0x3F00#16, 0xFFFF#16].map (·.toNat % 0x4000) =
      [0x0000, 0x1FFF, 0x2000, 0x2FFF, 0x3000, 0x3EFF, 0x3F00, 0x3FFF] ∧
    let p := busWritePpu 0x3F14 0x33 (busWritePpu 0x3EFF 0x22 (busWritePpu 0x5FFF 0x11 State.reset.ppu))
    [0x1FFF#16, 0x2EFF#16, 0x2FFF#16, 0x3F14#16, 0x3F04#16].map (busReadPpu · p) = [0x11, 0x22, 0x00, 0x33, 0x00] := by
  decide

/-- A frame's dots in one piece and in three. -/
theorem witness_FrameEndOncePerFrame :
    State.reset.ppu.line = 0 ∧ State.reset.ppu.dot = 0 ∧ [89342].sum = 262 * 341 ∧ [341, 1, 89000].sum = 262 * 341 := by decide

theorem witness_BeamPosition :
    let s := withPpu fun p => { p with line := 261, dot := 340 }
    s.ppu.line < 262 ∧ s.ppu.dot < 341 ∧ s.ppu.frameDots = 89341 := by decide

theorem witness_DmaTransferCopiesAPage :
    (busWrite 0x4014 0xFF State.reset).dma.pending = true ∧ State.reset.dma.pending = false := by decide

/-- Bytes whose other seven bits differ; a second latch write starts again from button 0. -/
theorem witness_ControllersShiftOutButtons :
    (0xFF#8).toNat % 2 = 1 ∧ (0x01#8).toNat % 2 = 1 ∧ (0xFE#8).toNat % 2 = 0 ∧ (0x00#8).toNat % 2 = 0 ∧
    (busWrite 0x4016 0xFF State.reset).port1.strobe = true ∧
    (busWrite 0x4017 0xFE (busWrite 0x4017 0x03 State.reset)).port2.strobe = false := by decide

/-- The last dot of a line, one more, and the last that still completes only one line. -/
theorem witness_DotsInAnyChunking :
    State.reset.ppu.dot + 340 < 341 ∧ (341 ≤ State.reset.ppu.dot + 341 ∧ State.reset.ppu.dot + 681 < 682) ∧
    ((ppuRun 340 State.reset).ppu.line, (ppuRun 341 State.reset).ppu.line, (ppuRun 681 State.reset).ppu.line) = (0, 1, 1) := by
  decide

theorem witness_AudioPort :
    [0x4000#16, 0x4013#16, 0x4015#16, 0x4018#16, 0x401F#16].all (fun a =>
      decide ((0x4000 ≤ a.toNat ∧ a.toNat ≤ 0x4013) ∨ a.toNat = 0x4015 ∨ (0x4018 ≤ a.toNat ∧ a.toNat ≤ 0x401F))) = true ∧
    completes (step (at8000 [0x8D, 0x00, 0x40])) = true := by decide

/-- A state that a program can be in: the invariant holds of it and its step completes. -/
theorem witness_StepKeepsInvariant :
    let s := at8000 [0x8D, 0x14, 0x40]
    s.Inv ∧ completes (step s) = true := by
  refine ⟨?_, by decide⟩
  constructor
  · exact ⟨by decide, by decide, fun m h => by cases h⟩
  · decide
  · decide
  · exact ⟨by decide, by decide, by decide, by decide, by decide, by decide, by decide, by decide⟩
  · decide
  · decide
  · decide
  · decide
  · change (buildSprites [] [] false).length = 64
    simp [buildSprites]
  · exact ⟨0, by decide, by decide, rfl⟩

/-- A cartridge with 32 KiB of ROM and character data, and images with a byte at their ends. -/
theorem witness_InvariantAtReset :
    Cartridge.Ok { prgSize := .k32, prg := [(0x7FFF, 0x01)], chr := some [(0x1FFF, 0x02)], horizontalMirror := true } ∧
    MemInit.Ok { ram := [(0x7FF, 0x01)], pat := [], vram := [(0x1FFF, 0x02)], oam := [(0xFF, 0x03)], pal := [(0x1F, 0x04)] } := by
  refine ⟨⟨by decide, by decide, fun m h => ?_⟩, ?_⟩
  · cases h; decide
  · constructor <;> decide

/-- The cheapest and the dearest step, without and with a transfer. -/
theorem witness_StepCostAndFrames :
    let dear := machine (code 0 [0xF3, 0xFF]) (regs 0 0 0x10 0xFD 0x24 0x8000) [(0x00, 0x02), (0xFF, 0xF8)]
    (at8000 [0xEA]).dma.pending = false ∧ seen [] (step (at8000 [0xEA])) = some (regs 0 0 0 0xFD 0x24 0x8001, 2, []) ∧
    (nextOr dear (step dear)).out.cycles = 9 ∧
    (busWrite 0x4014 0x02 dear).dma.pending = true ∧
    ((nextOr dear (step (busWrite 0x4014 0x02 dear))).out.cycles,
      (nextOr dear (step (busWrite 0x4014 0x02 dear))).out.audioTick) = (9, 523) := by decide +kernel

theorem witness_OtherAgentsLeaveCpuAndMemory : completes (step (at8000 [0x8D, 0x04, 0x20])) = true := by decide

end Sys2Proof.Tests
end

section
/-! SUPPORT. What the agents of a system step leave alone (00_scope.md R5), and the inversion of a step that completes:
the inputs, the DMA transfer, an interrupt's entry, one instruction, the PPU's dots. -/

namespace Sys2Proof.Machine

/-! ### The inputs and the DMA transfer -/

/-- The start of a step writes the schedule, the buttons, the IRQ latch and the outputs, and nothing else. -/
theorem beginStep_cases (s : State) :
    ∃ l b1 b2 q, beginStep s =
      ((((s.setOut Outputs.empty).setInputs l).setButtons1 b1).setButtons2 b2).setIrq q :=
  takeInputs_cases (s.setOut Outputs.empty)

@[simp] theorem beginStep_cpu (s : State) : (beginStep s).cpu = s.cpu := by
  obtain ⟨l, b1, b2, q, h⟩ := beginStep_cases s; rw [h]; rfl
@[simp] theorem beginStep_ram (s : State) : (beginStep s).ram = s.ram := by
  obtain ⟨l, b1, b2, q, h⟩ := beginStep_cases s; rw [h]; rfl
@[simp] theorem beginStep_ppu (s : State) : (beginStep s).ppu = s.ppu := by
  obtain ⟨l, b1, b2, q, h⟩ := beginStep_cases s; rw [h]; rfl
@[simp] theorem beginStep_cart (s : State) : (beginStep s).cart = s.cart := by
  obtain ⟨l, b1, b2, q, h⟩ := beginStep_cases s; rw [h]; rfl

/-- A transfer, where one is pending, writes sprite memory, the DMA Unit and the outputs, and nothing else (R341). -/
theorem runDma_writes (s : State) :
    ∃ oam d o, runDma s = ((s.setPpu { s.ppu with oam := oam }).setDma d).setOut o := by
  obtain ⟨_, h⟩ | ⟨_, h⟩ := runDma_cases s
  · exact ⟨_, _, _, h⟩
  · exact ⟨s.ppu.oam, s.dma, s.out, h⟩

@[simp] theorem runDma_cpu (s : State) : (runDma s).cpu = s.cpu := by
  obtain ⟨oam, d, o, h⟩ := runDma_writes s; rw [h]; rfl
@[simp] theorem runDma_ram (s : State) : (runDma s).ram = s.ram := by
  obtain ⟨oam, d, o, h⟩ := runDma_writes s; rw [h]; rfl
@[simp] theorem runDma_cart (s : State) : (runDma s).cart = s.cart := by
  obtain ⟨oam, d, o, h⟩ := runDma_writes s; rw [h]; rfl

theorem runDma_sameRaster (s : State) : s.ppu.SameRaster (runDma s).ppu := by
  obtain ⟨oam, d, o, h⟩ := runDma_writes s; rw [h]; exact ⟨rfl, rfl, rfl, rfl⟩

/-! ### The CPU step -/

/-- The same value written to the NMI latch on both sides keeps a frame. -/
theorem CpuFrame.setNmi {s t : State} (h : CpuFrame s t) (b : Bool) : CpuFrame (s.setNmi b) (t.setNmi b) :=
  { h with nmiLatch := rfl }

/-- The same value written to the IRQ latch on both sides keeps a frame. -/
theorem CpuFrame.setIrq {s t : State} (h : CpuFrame s t) (b : Bool) : CpuFrame (s.setIrq b) (t.setIrq b) :=
  { h with irqLatch := rfl }

theorem interruptEntry_cpuFrame (vector : Addr) (s : State) : CpuFrame s (interruptEntry vector s) :=
  (enterHandler_cpuFrame vector _ _ s).trans
    (cpuFrame_of_cpu rfl (by rw [interruptEntry, flag_setFlag, if_neg (by decide)]; exact id)
      (fun _ => flag_setFlag_same _ .b false))

/-- Servicing an interrupt is within the frame of an instruction but for the latch it takes down. -/
theorem serviceInterrupt_cpuFrame (s : State) : ∃ n q, CpuFrame ((s.setNmi n).setIrq q) (serviceInterrupt s) := by
  obtain ⟨_, h⟩ | ⟨_, _, _, h⟩ | ⟨_, _, h⟩ := serviceInterrupt_cases s <;> rw [h]
  · exact ⟨false, s.irqLatch, ((interruptEntry_cpuFrame _ s).setNmi false).trans (charge_cpuFrame _ _)⟩
  · exact ⟨s.nmiLatch, false, ((interruptEntry_cpuFrame _ s).setIrq false).trans (charge_cpuFrame _ _)⟩
  · exact ⟨s.nmiLatch, s.irqLatch, CpuFrame.refl s⟩

/-- The CPU step is within the frame of an instruction but for the latch of an interrupt it services. -/
theorem cpuStep_cpuFrame {s t : State} (h : cpuStep s = .next t) : ∃ n q, CpuFrame ((s.setNmi n).setIrq q) t := by
  obtain ⟨n, q, hs⟩ := serviceInterrupt_cpuFrame s
  exact ⟨n, q, (hs.trans (fetchInstr_cpuFrame _)).trans (exec_cpuFrame h)⟩

/-! ### The system step -/

/-- A step that completes is a CPU step that completes, then the PPU and the audio tick (R350). -/
theorem step_cases {s t : State} (h : step s = .next t) :
    ∃ u, cpuStep (runDma (beginStep s)) = .next u ∧ t = finishStep u := by
  unfold step at h
  split at h
  · next u hu => exact ⟨u, hu, (Host.Outcome.next.inj h).symm⟩
  · cases h
  · cases h

@[simp] theorem finishStep_cpu (s : State) : (finishStep s).cpu = s.cpu := (ppuRun_frame _ s).cpu
@[simp] theorem finishStep_ram (s : State) : (finishStep s).ram = s.ram := (ppuRun_frame _ s).ram
@[simp] theorem finishStep_cart (s : State) : (finishStep s).cart = s.cart := (ppuRun_frame _ s).cart

/-- No step changes the cartridge (00_scope.md R5). -/
theorem step_cart {s t : State} (h : step s = .next t) : t.cart = s.cart := by
  obtain ⟨u, hu, rfl⟩ := step_cases h
  obtain ⟨n, q, frame⟩ := cpuStep_cpuFrame hu
  calc (finishStep u).cart = u.cart := finishStep_cart u
    _ = (runDma (beginStep s)).cart := frame.cart
    _ = s.cart := by rw [runDma_cart, beginStep_cart]

end Sys2Proof.Machine
end

section
/-! SUPPORT. The cost of a CPU step (40_addressing_modes.md R145): each access class charges its base cycles and the extra
cycle of its operand, and what an instruction does with the operand charges nothing. -/

namespace Sys2Proof.Machine

/-! ### Operations that charge nothing -/

@[simp] theorem addWithCarry_out (m : Byte) (s : State) : (addWithCarry m s).out = s.out := rfl

@[simp] theorem compareBytes_out (r m : Byte) (s : State) : (compareBytes r m s).out = s.out := rfl

@[simp] theorem push_cycles (b : Byte) (s : State) : (push b s).out.cycles = s.out.cycles := by
  rw [push_eq]; rfl

@[simp] theorem push16_cycles (w : Addr) (s : State) : (push16 w s).out.cycles = s.out.cycles := by
  rw [push16_eq]; rfl

@[simp] theorem read16_out (a : Addr) (s : State) : (read16 a s).2.out = s.out := by simp [read16]

@[simp] theorem enterHandler_cycles (vector ret : Addr) (status : Byte) (s : State) :
    (enterHandler vector ret status s).out.cycles = s.out.cycles := by simp [enterHandler]

@[simp] theorem resolveIndirect_out (w : Addr) (s : State) : (resolveIndirect w s).2.out = s.out := by
  simp [resolveIndirect]

@[simp] theorem fetch8_out (s : State) : (fetch8 s).2.out = s.out := by simp [fetch8]

/-- Fetching an instruction charges nothing: its cost is its meaning's. -/
@[simp] theorem fetchInstr_out (s : State) : (fetchInstr s).2.out = s.out := by
  unfold fetchInstr
  simp only
  split <;> simp

/-- Servicing an interrupt charges nothing (INT_ENTRY_CYCLES is 0, decision D12). -/
theorem serviceInterrupt_cycles (s : State) : (serviceInterrupt s).out.cycles = s.out.cycles := by
  have entry (v : Addr) : (interruptEntry v s).out.cycles = s.out.cycles := by simp [interruptEntry]
  obtain ⟨_, h⟩ | ⟨_, _, _, h⟩ | ⟨_, _, h⟩ := serviceInterrupt_cases s <;> rw [h]
  · exact entry 0xFFFA#16
  · exact entry 0xFFFE#16

/-! ### The access classes -/

/-- Between 2 and 9 cycles more were charged in `t` than in `s`. -/
def Costs2To9 (s t : State) : Prop := s.out.cycles + 2 ≤ t.out.cycles ∧ t.out.cycles ≤ s.out.cycles + 9

theorem costs2To9_charge {s t : State} {n : Nat} (h : t.out.cycles = s.out.cycles) (h2 : 2 ≤ n) (h9 : n ≤ 9) :
    Costs2To9 s (t.charge n) := by
  rw [Costs2To9, State.charge_cycles, h]
  omega

theorem readBase_bounds (m : Mem) : 2 ≤ readBase m ∧ readBase m ≤ 8 := by cases m <;> simp [readBase]
theorem writeBase_bounds (m : Mem) : 2 ≤ writeBase m ∧ writeBase m ≤ 8 := by cases m <;> simp [writeBase]
theorem rmwBase_bounds (m : Mem) : 2 ≤ rmwBase m ∧ rmwBase m ≤ 8 := by cases m <;> simp [rmwBase]

/-- A base of 2 to 8 cycles and the extra cycle of a memory operand. -/
theorem costs2To9_operand {s t : State} {base : Nat} (h : t.out.cycles = s.out.cycles) (hb : 2 ≤ base ∧ base ≤ 8)
    (m : Mem) (u : State) : Costs2To9 s (t.charge (base + (resolve m u).extra)) := by
  have hx := resolve_extra_le m u
  exact costs2To9_charge h (by omega) (by omega)

theorem readMemClass_costs {use : Byte → State → State} (h : ∀ v t, (use v t).out.cycles = t.out.cycles) (m : Mem)
    (s : State) : Costs2To9 s (readMemClass (readBase m) m use s) := by
  rw [readMemClass_eq]
  exact costs2To9_operand (by rw [h, busRead_out]) (readBase_bounds m) m s

theorem readClass_costs {use : Byte → State → State} (h : ∀ v t, (use v t).out.cycles = t.out.cycles) (src : Src)
    (s : State) : Costs2To9 s (readClass (srcBase src) src use s) := by
  cases src with
  | imm v => exact costs2To9_charge (n := 2) (h v s) (by decide) (by decide)
  | mem m => exact readMemClass_costs h m s

theorem writeClass_costs (m : Mem) (v : Byte) (s : State) : Costs2To9 s (writeClass (writeBase m) m v s) := by
  rw [writeClass_eq]
  exact costs2To9_operand (busWrite_cycles _ v s) (writeBase_bounds m) m s

theorem rmwClass_costs {new : Bool → Byte → Byte} {after : Byte → Byte → State → State}
    (h : ∀ m r t, (after m r t).out.cycles = t.out.cycles) (m : Mem) (s : State) :
    Costs2To9 s (rmwClass (rmwBase m) m new after s) := by
  rw [rmwClass_eq]
  exact costs2To9_operand (by rw [h, busWrite_cycles, busRead_out]) (rmwBase_bounds m) m s

theorem shiftClass_costs {new : Bool → Byte → Byte} {after : Byte → Byte → State → State}
    (h : ∀ m r t, (after m r t).out.cycles = t.out.cycles) (dst : Dst) (s : State) :
    Costs2To9 s (shiftClass dst new after s) := by
  cases dst with
  | acc => exact costs2To9_charge (h _ _ _) (by decide) (by decide)
  | mem m => exact rmwClass_costs h m s

theorem branchClass_costs (taken : Bool) (d : Byte) (s : State) : Costs2To9 s (branchClass taken d s) := by
  have hx := pageCross_le (branchTarget s.cpu.pc d) s.cpu.pc
  unfold branchClass
  simp only
  split
  · exact costs2To9_charge rfl (by omega) (by omega)
  · exact costs2To9_charge rfl (by omega) (by omega)

theorem nopUnofficial_costs (arg : NopArg) (s : State) : Costs2To9 s ((nopResolve arg s).charge (nopCost arg s)) := by
  cases arg with
  | imp | imm v => exact costs2To9_charge (n := 2) rfl (by decide) (by decide)
  | mem m => exact costs2To9_operand (by rw [nopResolve, resolve_post]) (readBase_bounds m) m s

/-! ### Every instruction -/

/-- An instruction that completes costs 2 to 9 cycles. -/
theorem exec_costs {i : Instr} {s t : State} (h : exec i s = .next t) : Costs2To9 s t := by
  cases i
  all_goals first
    | (cases h; done)
    | (injection h with h; subst h)
  case lda | ldx | ldy | adc | and | ora | eor | cmp | cpx | cpy => exact readClass_costs (by simp) _ s
  case sbc => exact readClass_costs (by simp [subWithBorrow]) _ s
  case sbcAlias v => exact readClass_costs (by simp [subWithBorrow]) (.imm v) s
  case bit | lax => exact readMemClass_costs (by simp [bitTest]) _ s
  case sta | stx | sty | sax => exact writeClass_costs _ _ s
  case inc | dec | slo | rla | sre => exact rmwClass_costs (by simp) _ s
  case dcp | isb | rra => exact rmwClass_costs (by simp [subWithBorrow]) _ s
  case asl | lsr | rol | ror => exact shiftClass_costs (by simp) _ s
  case bpl | bmi | bvc | bvs | bcc | bcs | bne | beq => exact branchClass_costs _ _ s
  case nopUnofficial op arg => exact nopUnofficial_costs arg s
  case tax | tay | txa | tya | tsx | txs | inx | iny | dex | dey | clc | sec | cli | sei | cld | sed | clv | nop | jmpAbs =>
    exact costs2To9_charge rfl (by decide) (by decide)
  case pha | php => exact costs2To9_charge (push_cycles _ s) (by decide) (by decide)
  case pla => exact costs2To9_charge (by rw [pullA, pull_eq]; rfl) (by decide) (by decide)
  case plp => exact costs2To9_charge (by rw [pullP, pull_eq]; rfl) (by decide) (by decide)
  case jmpInd => exact costs2To9_charge (by rw [jumpIndirect, State.setPc_out, resolveIndirect_out]) (by decide) (by decide)
  case jsr => exact costs2To9_charge (push16_cycles _ s) (by decide) (by decide)
  case rts => exact costs2To9_charge (by rw [returnFromCall, pull16_eq]; rfl) (by decide) (by decide)
  case brk => exact costs2To9_charge (enterHandler_cycles _ _ _ s) (by decide) (by decide)
  case rti => exact costs2To9_charge (by rw [returnFromHandler_eq]; rfl) (by decide) (by decide)

/-- So does a CPU step that completes, an interrupt's entry included. -/
theorem cpuStep_costs {s t : State} (h : cpuStep s = .next t) : Costs2To9 s t := by
  have hx : Costs2To9 (fetchInstr (serviceInterrupt s)).2 t := exec_costs h
  rwa [Costs2To9, fetchInstr_out, serviceInterrupt_cycles] at hx

end Sys2Proof.Machine
end

section
/-! SUPPORT. The beam's line and the frames put out (60_exceptions.md R310, R311, R316): a completed scanline moves to the
next line, and the last one of a frame puts out one record and moves to line 0. -/

namespace Sys2Proof.Machine

/-- The same line and outputs: what every part of a scanline's completion between the count of the line and the frame's end
keeps (R311). -/
structure SameLine (s t : State) : Prop where
  line : t.ppu.line = s.ppu.line
  out  : t.out = s.out

theorem SameLine.trans {s t u : State} (h : SameLine s t) (g : SameLine t u) : SameLine s u :=
  ⟨g.line.trans h.line, g.out.trans h.out⟩

/-- What is done under a condition keeps the line if it does so without one. -/
theorem sameLine_ite {p : Prop} [Decidable p] {f : State → State} (h : ∀ s, SameLine s (f s)) (s : State) :
    SameLine s (if p then f s else s) := by
  split
  · exact h s
  · exact ⟨rfl, rfl⟩

theorem spriteZeroTest_sameLine (n : Nat) (s : State) : SameLine s (spriteZeroTest n s) :=
  sameLine_ite (f := fun s => s.setPpu { s.ppu with sprite0Hit := true }) (fun _ => ⟨rfl, rfl⟩) s

theorem buildBackgroundRow_sameLine (s : State) : SameLine s (buildBackgroundRow s) := ⟨rfl, rfl⟩

theorem vblankStart_sameLine (s : State) : SameLine s (vblankStart s) := by
  unfold vblankStart; simp only; split <;> exact ⟨rfl, rfl⟩

/-- A completed scanline is the frame's last test on a state at the next line, with the outputs as they were. -/
theorem lineComplete_eq (s : State) :
    ∃ u, SameLine (s.setPpu { s.ppu with dot := s.ppu.dot - Config.dotsPerLine, line := s.ppu.line + 1 }) u ∧
      lineComplete s = if u.ppu.line = Config.linesPerFrame then frameEnd u else u := by
  refine ⟨_, ?_, rfl⟩
  exact ((spriteZeroTest_sameLine s.ppu.line _).trans (sameLine_ite buildBackgroundRow_sameLine _)).trans
    (sameLine_ite vblankStart_sameLine _)

theorem lineComplete_line (s : State) :
    (lineComplete s).ppu.line = if s.ppu.line + 1 = 262 then 0 else s.ppu.line + 1 := by
  obtain ⟨u, ⟨hl, _⟩, h⟩ := lineComplete_eq s
  rw [State.setPpu_ppu] at hl
  rw [h, hl, Config.linesPerFrame]
  split
  · rfl
  · exact hl

theorem lineComplete_frames_length (s : State) :
    (lineComplete s).out.frames.length = s.out.frames.length + if s.ppu.line + 1 = 262 then 1 else 0 := by
  obtain ⟨u, ⟨hl, ho⟩, h⟩ := lineComplete_eq s
  rw [State.setPpu_ppu] at hl
  rw [State.setPpu_out] at ho
  rw [h, hl, ← ho, Config.linesPerFrame]
  split
  · exact List.length_append
  · rfl

/-- From a line of the frame, `k` scanlines put out one record for each time they pass the frame's end. -/
theorem linesComplete_frames_length {s : State} (h : s.ppu.line < 262) (k : Nat) :
    (linesComplete k s).out.frames.length = s.out.frames.length + (s.ppu.line + k) / 262 := by
  induction k generalizing s with
  | zero => rw [linesComplete]; omega
  | succ k ih =>
    have hl := lineComplete_line s
    have hf := lineComplete_frames_length s
    have hlt : (lineComplete s).ppu.line < 262 := by rw [hl]; split <;> omega
    rw [linesComplete, ih hlt, hl, hf]
    split <;> omega

/-- Dots from a line of the frame put out one record for each time the lines they complete pass the frame's end. -/
theorem ppuRun_frames_length {s : State} (h : s.ppu.line < 262) (n : Nat) :
    (ppuRun n s).out.frames.length = s.out.frames.length + (s.ppu.line + (s.ppu.dot + n) / 341) / 262 :=
  linesComplete_frames_length (s := s.setPpu { s.ppu with dot := s.ppu.dot + n }) h _

end Sys2Proof.Machine
end

section
/-! SUPPORT. The statements about 00_scope.md: the cost of a system step and its frames (O59), and what the agents other than
the CPU leave alone (O60). -/

namespace Sys2Proof.Machine

/-- The CPU step starts with nothing charged to it and nothing put out but a transfer's cycles. -/
theorem beforeCpu_out (s : State) :
    (runDma (beginStep s)).out = { Outputs.empty with dmaCycles := if s.dma.pending then 514 else 0 } := by
  rw [runDma_out, beginStep_out, beginStep_dma]
  simp [Outputs.empty, Config.dmaCycles]

/-- Before the PPU runs, a step that completes has put out no frame, charged 2 to 9 cycles and a transfer's, and left the
beam where it was. -/
theorem step_beforePpu {s t : State} (h : step s = .next t) :
    ∃ u, t = finishStep u ∧ (2 ≤ u.out.cycles ∧ u.out.cycles ≤ 9) ∧
      u.out.dmaCycles = (if s.dma.pending then 514 else 0) ∧ u.out.frames = [] ∧ s.ppu.SameRaster u.ppu := by
  obtain ⟨u, hu, rfl⟩ := step_cases h
  obtain ⟨n, q, frame⟩ := cpuStep_cpuFrame hu
  have cost := cpuStep_costs hu
  have raster := (runDma_sameRaster (beginStep s)).trans frame.raster
  have dma := frame.dmaCycles
  have frames := frame.frames
  rw [Costs2To9, beforeCpu_out] at cost
  rw [State.setIrq_out, State.setNmi_out, beforeCpu_out] at dma frames
  rw [beginStep_ppu] at raster
  exact ⟨u, rfl, by simpa [Outputs.empty] using cost, dma, frames, raster⟩

/-- From the beam at rest in its frame, the 523 cycles of the longest step end at most one frame. -/
theorem finishStep_frames_le_one {s : State} (hline : s.ppu.line < 262) (hdot : s.ppu.dot < 341)
    (hcycles : s.stepCycles ≤ 523) (hframes : s.out.frames = []) : (finishStep s).out.frames.length ≤ 1 := by
  have h := ppuRun_frames_length hline (Config.dotsPerCycle * s.stepCycles)
  rw [hframes, List.length_nil, Config.dotsPerCycle] at h
  change (ppuRun (3 * s.stepCycles) s).out.frames.length ≤ 1
  omega

/-- Settles O59: the classes of instructions bound the CPU step's cost, and the dots of 523 cycles complete at most five
scanlines, fewer than a frame has. -/
theorem stepCostAndFrames : Obligations.StepCostAndFrames := by
  intro s t h
  obtain ⟨u, rfl, ⟨low, high⟩, dma, frames, raster⟩ := step_beforePpu h
  have after := ppuRun_frame (Config.dotsPerCycle * u.stepCycles) u
  refine ⟨low.trans_eq after.cycles.symm, after.cycles.trans_le high, after.dmaCycles.trans dma, rfl, fun inv => ?_⟩
  have hcycles : u.stepCycles ≤ 523 := by
    rw [State.stepCycles, dma]; split <;> omega
  exact finishStep_frames_le_one (raster.line ▸ inv.line) (raster.dot ▸ inv.dot) hcycles frames

/-- Settles O60: each agent's own inversion names all that it writes, and the CPU step keeps the cartridge. -/
theorem otherAgentsLeaveCpuAndMemory : Obligations.OtherAgentsLeaveCpuAndMemory := by
  intro s
  obtain ⟨oam, d, o, hd⟩ := runDma_writes s
  have hp := ppuRun_frame (Config.dotsPerCycle * s.stepCycles) s
  exact ⟨beginStep_cpu s, runDma_cpu s, finishStep_cpu s, beginStep_ram s, runDma_ram s, finishStep_ram s,
    beginStep_ppu s, by rw [hd]; rfl, by rw [hd]; rfl, by rw [hd]; rfl, hp.pat, hp.vram, hp.oam, hp.pal,
    fun t h => step_cart h⟩

end Sys2Proof.Machine
end

section
/-! SUPPORT. What one completed scanline does, element by element (60_exceptions.md R311, R312, R315 to R317). -/

namespace Sys2Proof.Machine

/-! ### The parts of a scanline's completion, each as one update -/

theorem spriteZeroTest_eq (n : Nat) (s : State) :
    spriteZeroTest n s = s.setPpu { s.ppu with
      sprite0Hit := s.ppu.sprite0Hit || decide ((s.ppu.oam.read 0).toNat = n ∧ s.ppu.spriteEnable ∧ s.ppu.bgEnable) } := by
  unfold spriteZeroTest
  split
  · next h => rw [decide_eq_true h, Bool.or_true]
  · next h => rw [decide_eq_false h, Bool.or_false]; rfl

theorem buildBackgroundRow_ite (c : Prop) [Decidable c] (s : State) :
    (if c then buildBackgroundRow s else s) = s.setPpu { s.ppu with
      background := if c then s.ppu.background ++ backgroundRow s.cart.horizontalMirror s.ppu else s.ppu.background } := by
  split <;> rfl

theorem vblankStart_ite (c : Prop) [Decidable c] (s : State) :
    (if c then vblankStart s else s) =
      (s.setPpu { s.ppu with vblank := if c then true else s.ppu.vblank }).setNmi
        (if c then s.nmiLatch || bit s.ppu.ctrl 7 else s.nmiLatch) := by
  split
  · unfold vblankStart Ppu.nmiEnable
    cases bit s.ppu.ctrl 7
    · rw [Bool.or_false]; rfl
    · rw [Bool.or_true]; rfl
  · rfl

/-- The machine after a scanline's completion up to the test for the frame's end, from the state before it (R311). -/
def beforeFrameEnd (s : State) : State :=
  let n := s.ppu.line + 1
  (s.setPpu { s.ppu with
    dot := s.ppu.dot - 341
    line := n
    sprite0Hit := s.ppu.sprite0Hit ||
      decide ((s.ppu.oam.read 0).toNat = s.ppu.line ∧ bit s.ppu.mask 4 = true ∧ bit s.ppu.mask 3 = true)
    background := if n ≤ 240 ∧ n % 8 = 0 ∧ s.ppu.scrollY.toNat ≤ 240 then
      s.ppu.background ++ backgroundRow s.cart.horizontalMirror { s.ppu with line := n } else s.ppu.background
    vblank := if n = 241 then true else s.ppu.vblank }).setNmi
    (if n = 241 then s.nmiLatch || bit s.ppu.ctrl 7 else s.nmiLatch)

theorem lineComplete_eq_beforeFrameEnd (s : State) :
    lineComplete s = if s.ppu.line + 1 = 262 then frameEnd (beforeFrameEnd s) else beforeFrameEnd s := by
  unfold lineComplete
  simp only
  rw [vblankStart_ite, buildBackgroundRow_ite, spriteZeroTest_eq]
  rfl

/-- Settles O46: element by element, for a line that ends the frame and for one that does not; what is left alone is the
scanline machine's frame. -/
theorem lineCompletion : Obligations.LineCompletion := by
  intro s
  have frame := lineComplete_frame s
  have complete := lineComplete_eq_beforeFrameEnd s
  by_cases last : s.ppu.line + 1 = 262
  · have noVblank : ¬ s.ppu.line + 1 = 241 := by omega
    have noRow : ¬ (s.ppu.line + 1 ≤ 240 ∧ (s.ppu.line + 1) % 8 = 0 ∧ s.ppu.scrollY.toNat ≤ 240) := by omega
    rw [if_pos last] at complete
    refine ⟨?dot, ?line, ?hit, ?row, ?vblank, ?nmi, ?sprites, ?frames, frame.ppu_eq, frame.state_eq⟩
    case dot => rw [complete]; rfl
    case vblank | nmi => rw [complete, if_neg noVblank, if_pos last]; rfl
    case frames => simp only [complete, frameEnd, beforeFrameEnd, if_neg noRow, if_pos last]; rfl
    all_goals rw [complete, if_pos last]; rfl
  · rw [if_neg last] at complete
    refine ⟨by rw [complete]; rfl, ?_, ?_, ?_, ?_, ?_, ?_, ?_, frame.ppu_eq, frame.state_eq⟩
    all_goals rw [complete, if_neg last]; rfl

end Sys2Proof.Machine
end

section
/-! SUPPORT. The invariant, agent by agent (60_exceptions.md R350): the inputs and the CPU step keep it by their frames, the
DMA transfer by the laws of sprite memory, and the PPU's dots by what one completed scanline does. -/

namespace Sys2Proof.Machine

/-! ### The beam and the frame buffers -/

/-- The part of the invariant that a scanline's completion works on, the count of dots apart: the line within the frame, 64
sprites, and whole rows of 33 tiles, at most one for each eight lines begun and at most 30 (10_state.md R32, R33;
60_exceptions.md R313). -/
structure Ppu.BuffersOk (p : Ppu) : Prop where
  line       : p.line < Config.linesPerFrame
  sprites    : p.sprites.length = 64
  background : ∃ rows, rows ≤ p.line / 8 ∧ rows ≤ 30 ∧ p.background.length = 33 * rows

theorem length_buildSprites (oam pat : Memory) (upper : Bool) : (buildSprites oam pat upper).length = 64 := by
  rw [buildSprites, List.length_map, List.length_range]

theorem length_backgroundRow (horizontal : Bool) (p : Ppu) : (backgroundRow horizontal p).length = 33 := by
  unfold backgroundRow
  rw [List.length_map, List.length_range]

/-- A completed scanline keeps the frame buffers whole: a row is appended where the eighth line of a row begins, and the
frame's end starts them again. -/
theorem lineComplete_buffersOk {s : State} (h : s.ppu.BuffersOk) : (lineComplete s).ppu.BuffersOk := by
  obtain ⟨_, line, _, bg, _, _, sprites, _⟩ := lineCompletion s
  obtain ⟨hline, hsprites, rows, hbegun, hmost, htiles⟩ := h
  rw [Config.linesPerFrame] at hline
  constructor
  · rw [line, Config.linesPerFrame]; split <;> omega
  · rw [sprites]; split
    · exact length_buildSprites _ _ _
    · exact hsprites
  · rw [bg, line]
    split
    · exact ⟨0, by omega, by omega, rfl⟩
    split
    · refine ⟨rows + 1, by omega, by omega, ?_⟩
      rw [List.length_append, length_backgroundRow, htiles]
      omega
    · exact ⟨rows, by omega, hmost, htiles⟩

theorem linesComplete_buffersOk {s : State} (h : s.ppu.BuffersOk) (k : Nat) : (linesComplete k s).ppu.BuffersOk := by
  induction k generalizing s with
  | zero => exact h
  | succ k ih => exact ih (lineComplete_buffersOk h)

/-- Each completed scanline takes its 341 dots. -/
theorem linesComplete_dot (k : Nat) (s : State) : (linesComplete k s).ppu.dot = s.ppu.dot - 341 * k := by
  induction k generalizing s with
  | zero => rfl
  | succ k ih => rw [linesComplete, ih, (lineCompletion s).1]; omega

/-- After any number of dots the beam is at rest within a line. -/
theorem ppuRun_dot_lt (n : Nat) (s : State) : (ppuRun n s).ppu.dot < Config.dotsPerLine := by
  rw [ppuRun, linesComplete_dot, Config.dotsPerLine]
  change s.ppu.dot + n - 341 * ((s.ppu.dot + n) / 341) < 341
  omega

/-! ### The invariant -/

/-- What stays within an instruction's frame keeps the invariant. -/
theorem CpuFrame.inv {s t : State} (frame : CpuFrame s t) (h : s.Inv) : t.Inv where
  cart       := frame.cart ▸ h.cart
  ramWf      := frame.ramWf h.ramWf
  ramWithin  := frame.ramWithin h.ramWithin
  ppu        := frame.memories h.ppu
  reserved   := frame.reserved h.reserved
  breakFlag  := frame.breakFlag h.breakFlag
  line       := frame.raster.line ▸ h.line
  dot        := frame.raster.dot ▸ h.dot
  sprites    := frame.raster.sprites ▸ h.sprites
  background := by rw [frame.raster.background, frame.raster.line]; exact h.background

theorem beginStep_inv {s : State} (h : s.Inv) : (beginStep s).Inv := by
  obtain ⟨l, b1, b2, q, e⟩ := beginStep_cases s
  rw [e]
  exact { h with }

theorem runDma_inv {s : State} (h : s.Inv) : (runDma s).Inv := by
  obtain ⟨_, e⟩ | ⟨_, e⟩ := runDma_cases s
  · have wf := dmaCopy_wf (ram := s.ram) h.ppu.oamWf s.dma.page s.ppu.oamAddr
    have within := dmaCopy_within (ram := s.ram) h.ppu.oamWithin s.dma.page s.ppu.oamAddr
    rw [e, dmaTransfer]
    generalize dmaCopy s.ram s.dma.page s.ppu.oamAddr s.ppu.oam = oam at wf within ⊢
    exact { h with ppu := { h.ppu with oamWf := wf, oamWithin := within } }
  · rw [e]; exact h

theorem cpuStep_inv {s t : State} (h : s.Inv) (e : cpuStep s = .next t) : t.Inv := by
  obtain ⟨n, q, frame⟩ := cpuStep_cpuFrame e
  exact frame.inv { h with }

/-- The PPU's dots keep the invariant, whatever their number. -/
theorem ppuRun_inv {s : State} (h : s.Inv) (n : Nat) : (ppuRun n s).Inv :=
  have frame := ppuRun_frame n s
  have buffers : (ppuRun n s).ppu.BuffersOk := 
    linesComplete_buffersOk (s := s.setPpu { s.ppu with dot := s.ppu.dot + n }) ⟨h.line, h.sprites, h.background⟩ _
  { cart       := frame.cart ▸ h.cart
    ramWf      := frame.ram ▸ h.ramWf
    ramWithin  := frame.ram ▸ h.ramWithin
    ppu        := frame.memoriesOk h.ppu
    reserved   := by rw [State.flag, frame.cpu]; exact h.reserved
    breakFlag  := by rw [State.flag, frame.cpu]; exact h.breakFlag
    line       := buffers.line
    dot        := ppuRun_dot_lt n s
    sprites    := buffers.sprites
    background := buffers.background }

theorem finishStep_inv {s : State} (h : s.Inv) : (finishStep s).Inv := { ppuRun_inv h _ with }

/-- Settles O56: the agents of a system step keep the invariant one after another. -/
theorem stepKeepsInvariant : Obligations.StepKeepsInvariant := by
  intro s t h e
  obtain ⟨u, hu, rfl⟩ := step_cases e
  exact finishStep_inv (cpuStep_inv (runDma_inv (beginStep_inv h)) hu)

end Sys2Proof.Machine
end

section
/-! SUPPORT. What reset leaves (10_state.md R37, 70_reset_and_hazards.md R380). -/

namespace Sys2Proof.Machine

/-- The program counter at reset is what a 16-bit read of the reset vector gives (decision D4). -/
theorem powerOn_pc (cart : Cartridge) (init : MemInit) :
    (State.powerOn cart init).cpu.pc = (read16 0xFFFC#16 (State.powerOn cart init)).1 := by
  rw [read16_of_rom (by decide) (by decide)]
  rfl

/-- Settles O58: PC through the vector's read; every other element is written out in `State.powerOn`. -/
theorem resetValues : Obligations.ResetValues := by
  intro cart init
  refine ⟨?_, ?_⟩
  · rw [← powerOn_pc]; rfl
  · and_intros <;> rfl

end Sys2Proof.Machine
end

section
/-! SUPPORT. An instruction is bus reads, bus writes where it stores, changes of the CPU registers and cycles charged, one
after another (20_memory.md R72), so what each of these leaves alone, the instruction does. -/

namespace Sys2Proof.Machine

/-! ### Addresses -/

/-- The address that an operand resolves to is the one its mode's rule names. -/
theorem resolve_ea (m : Mem) (s : State) : (resolve m s).ea = effAddr m s := by
  cases m <;> simp [resolve, effAddr, readPointer_eq]

/-! ### The accesses of an instruction -/

/-- `t` comes from `s` by accesses of the kinds that an instruction makes, every bus write at an address of `stored`. -/
inductive Accesses (stored : List Addr) : State → State → Prop where
  | refl (s : State) : Accesses stored s s
  | trans {s t u : State} : Accesses stored s t → Accesses stored t u → Accesses stored s u
  | read (a : Addr) (s : State) : Accesses stored s (busRead a s).2
  | write {a : Addr} (h : a ∈ stored) (v : Byte) (s : State) : Accesses stored s (busWrite a v s)
  | regs {s t : State} (h : t = s.withCpu t.cpu) : Accesses stored s t
  | charge (n : Nat) (s : State) : Accesses stored s (s.charge n)

section
variable {stored : List Addr} {s : State}

theorem Accesses.push (h : stackAddr s.cpu.sp ∈ stored) (b : Byte) : Accesses stored s (push b s) :=
  (Accesses.write h b s).trans (.regs rfl)

theorem Accesses.push16 (h : stackAddr s.cpu.sp ∈ stored) (h' : stackAddr (s.cpu.sp - 1#8) ∈ stored) (w : Addr) :
    Accesses stored s (push16 w s) :=
  (Accesses.push h (hiByte w)).trans (.push h' (loByte w))

theorem Accesses.pull (s : State) : Accesses stored s (pull s).2 := (Accesses.regs rfl).trans (.read _ _)

theorem Accesses.pull16 (s : State) : Accesses stored s (pull16 s).2 := (Accesses.pull s).trans (.pull _)

theorem Accesses.read16 (a : Addr) (s : State) : Accesses stored s (read16 a s).2 := (Accesses.read a s).trans (.read _ _)

theorem Accesses.enterHandler (h : stackAddr s.cpu.sp ∈ stored) (h' : stackAddr (s.cpu.sp - 1#8) ∈ stored)
    (h'' : stackAddr (s.cpu.sp - 2#8) ∈ stored) (vector ret : Addr) (status : Byte) :
    Accesses stored s (enterHandler vector ret status s) := by
  have sp : (Machine.push16 ret s).cpu.sp = s.cpu.sp - 2#8 := by
    rw [push16_eq, State.setSp_sp]
    bv_omega
  exact ((((Accesses.push16 h h' ret).trans (.push (sp ▸ h'') status)).trans (.regs rfl)).trans (.read16 vector _)).trans
    (.regs rfl)

theorem Accesses.returnFromHandler (s : State) : Accesses stored s (returnFromHandler s) :=
  (((Accesses.pull s).trans (.regs rfl)).trans (.pull16 _)).trans (.regs rfl)

/-! ### The access classes -/

theorem Accesses.readMemClass {use : Byte → State → State} (h : ∀ m t, use m t = t.withCpu (use m t).cpu) (base : Nat)
    (m : Mem) (s : State) : Accesses stored s (readMemClass base m use s) := by
  rw [readMemClass_eq]
  exact ((Accesses.read _ s).trans (.regs (h _ _))).trans (.charge _ _)

theorem Accesses.readClass {use : Byte → State → State} (h : ∀ m t, use m t = t.withCpu (use m t).cpu) (base : Nat)
    (src : Src) (s : State) : Accesses stored s (readClass base src use s) := by
  cases src with
  | imm v => exact (Accesses.regs (h v s)).trans (.charge _ _)
  | mem m => exact .readMemClass h base m s

theorem Accesses.writeClass {m : Mem} (h : effAddr m s ∈ stored) (base : Nat) (v : Byte) :
    Accesses stored s (writeClass base m v s) := by
  rw [writeClass_eq]
  exact (Accesses.write (resolve_ea m s ▸ h) v s).trans (.charge _ _)

theorem Accesses.rmwClass {m : Mem} (hm : effAddr m s ∈ stored) {new : Bool → Byte → Byte}
    {after : Byte → Byte → State → State} (h : ∀ m r t, after m r t = t.withCpu (after m r t).cpu) (base : Nat) :
    Accesses stored s (rmwClass base m new after s) := by
  rw [rmwClass_eq]
  exact (((Accesses.read _ s).trans (.write (resolve_ea m s ▸ hm) _ _)).trans (.regs (h _ _ _))).trans (.charge _ _)

theorem Accesses.shiftClass {dst : Dst} (hm : ∀ m, dst = .mem m → effAddr m s ∈ stored) {new : Bool → Byte → Byte}
    {after : Byte → Byte → State → State} (h : ∀ m r t, after m r t = t.withCpu (after m r t).cpu) :
    Accesses stored s (shiftClass dst new after s) := by
  cases dst with
  | acc => exact ((Accesses.regs rfl).trans (.regs (h _ _ (s.setA _)))).trans (.charge _ _)
  | mem m => exact .rmwClass (hm m rfl) h _

/-- An instruction with no operand: its effect, then its cycles. -/
theorem Accesses.implied {f : State → State} (h : Accesses stored s (f s)) (base : Nat) :
    Accesses stored s (impliedClass base f s) := h.trans (.charge _ _)

theorem Accesses.branchClass (taken : Bool) (d : Byte) (s : State) : Accesses stored s (branchClass taken d s) := by
  unfold Machine.branchClass
  simp only
  split
  · exact (Accesses.regs rfl).trans (.charge _ _)
  · exact .charge _ s

end

/-! ### Every instruction -/

/-- An instruction that completes writes at the addresses that it stores to and nowhere else (20_memory.md R72). -/
theorem exec_accesses {i : Instr} {s t : State} (h : exec i s = .next t) : Accesses (storedAt i s) s t := by
  cases i
  all_goals first
    | (cases h; done)
    | (injection h with h; subst h)
  case lda | ldx | ldy | adc | sbc | and | ora | eor | cmp | cpx | cpy | sbcAlias =>
    exact .readClass (fun _ _ => rfl) _ _ s
  case bit | lax => exact .readMemClass (fun _ _ => rfl) _ _ s
  case sta | stx | sty | sax => exact .writeClass (List.mem_singleton_self _) _ _
  case inc | dec | dcp | isb | slo | rla | sre | rra => exact .rmwClass (List.mem_singleton_self _) (fun _ _ _ => rfl) _
  case asl | lsr | rol | ror =>
    exact .shiftClass (by rintro m rfl; exact List.mem_singleton_self _) (fun _ _ _ => rfl)
  case tax | tay | txa | tya | tsx | txs | inx | iny | dex | dey | clc | sec | cli | sei | cld | sed | clv | nop =>
    exact .implied (.regs rfl) _
  case pha | php => exact .implied (.push (List.mem_singleton_self _) _) _
  case pla | plp => exact .implied ((Accesses.pull s).trans (.regs rfl)) _
  case jmpAbs => exact (Accesses.regs rfl).trans (.charge _ _)
  case jmpInd => exact (((Accesses.read _ s).trans (.read _ _)).trans (.regs rfl)).trans (.charge _ _)
  case jsr => exact ((Accesses.push16 (by simp [storedAt]) (by simp [storedAt]) _).trans (.regs rfl)).trans (.charge _ _)
  case rts => exact .implied ((Accesses.pull16 s).trans (.regs rfl)) _
  case bpl | bmi | bvc | bvs | bcc | bcs | bne | beq => exact .branchClass _ _ s
  case brk =>
    refine .implied ?_ _
    exact .enterHandler (by simp [storedAt]) (by simp [storedAt]) (by simp [storedAt]) _ _ _
  case rti => exact .implied (.returnFromHandler s) _
  case nopUnofficial op arg =>
    cases arg with
    | mem m => rw [nopResolve, resolve_post]; exact .charge _ s
    | _ => exact .charge _ s

/-! ### What the accesses leave alone -/

/-- A PPU register read changes the vblank flag, the scroll toggle, the video address and the read buffer at most (R329 to
R332). -/
theorem ppuRegRead_post (k : Nat) (p : Ppu) : ∃ vb st va rb, (ppuRegRead k p).2 =
    { p with vblank := vb, scrollToggle := st, vramAddr := va, readBuf := rb } := by
  unfold ppuRegRead
  split
  · exact ⟨_, _, p.vramAddr, p.readBuf, rfl⟩
  · exact ⟨p.vblank, p.scrollToggle, p.vramAddr, p.readBuf, rfl⟩
  · unfold readVramData
    simp only
    split
    · exact ⟨p.vblank, p.scrollToggle, _, p.readBuf, rfl⟩
    · exact ⟨p.vblank, p.scrollToggle, _, _, rfl⟩
  · exact ⟨p.vblank, p.scrollToggle, p.vramAddr, p.readBuf, rfl⟩

/-- A bus read changes those four elements of the PPU and the ports' indices at most (20_memory.md R61). -/
theorem busRead_writes (a : Addr) (s : State) : ∃ vb st va rb i1 i2, (busRead a s).2 =
    ((s.setPpu { s.ppu with vblank := vb, scrollToggle := st, vramAddr := va, readBuf := rb }).setPort1
      { s.port1 with index := i1 }).setPort2 { s.port2 with index := i2 } := by
  unfold busRead
  cases route a with
  | ppuReg k =>
    obtain ⟨vb, st, va, rb, h⟩ := ppuRegRead_post k s.ppu
    exact ⟨vb, st, va, rb, s.port1.index, s.port2.index, congrArg s.setPpu h⟩
  | port p =>
    refine ⟨s.ppu.vblank, s.ppu.scrollToggle, s.ppu.vramAddr, s.ppu.readBuf, ?_⟩
    cases p with
    | one => exact ⟨s.port1.index + 1, s.port2.index, rfl⟩
    | two => exact ⟨s.port1.index, s.port2.index + 1, rfl⟩
  | _ => exact ⟨s.ppu.vblank, s.ppu.scrollToggle, s.ppu.vramAddr, s.ppu.readBuf, s.port1.index, s.port2.index, rfl⟩

/-- No PPU register write changes the sprite-zero flag. -/
theorem ppuRegWrite_sprite0Hit (k : Nat) (v : Byte) (p : Ppu) : (ppuRegWrite k v p).sprite0Hit = p.sprite0Hit := by
  unfold ppuRegWrite
  split
  · rfl
  · rfl
  · rfl
  · rfl
  · rfl
  · unfold writeScroll; split <;> rfl
  · unfold writeVramAddr; split <;> rfl
  · rw [writeVramData, busWritePpu_eq]; rfl

theorem busWrite_sprite0Hit (a : Addr) (v : Byte) (s : State) : (busWrite a v s).ppu.sprite0Hit = s.ppu.sprite0Hit := by
  unfold busWrite
  cases route a with
  | ppuReg k => exact ppuRegWrite_sprite0Hit k v s.ppu
  | port p => cases p <;> rfl
  | _ => rfl

/-- No access of an instruction changes the sprite-zero flag: the scanline machine alone does (60_exceptions.md R312, R316). -/
theorem Accesses.sprite0Hit {stored : List Addr} {s t : State} (h : Accesses stored s t) :
    t.ppu.sprite0Hit = s.ppu.sprite0Hit := by
  induction h with
  | refl | charge => rfl
  | trans _ _ ih ih' => exact ih'.trans ih
  | read a s => obtain ⟨_, _, _, _, _, _, h⟩ := busRead_writes a s; rw [h]; rfl
  | write _ v s => exact busWrite_sprite0Hit _ v s
  | regs h => rw [h]; rfl

/-- What only a store changes: the DMA Unit, RAM, the audio writes, the PPU's control, mask, sprite-address and scroll
registers and its address toggle, the ports' strobes and latched buttons. -/
def State.storeOnly (s : State) :=
  (s.dma, s.ram, s.out.audioWrites, s.ppu.ctrl, s.ppu.mask, s.ppu.oamAddr, s.ppu.scrollX, s.ppu.scrollY, s.ppu.addrToggle,
    s.port1.shift, s.port2.shift, s.port1.strobe, s.port2.strobe)

/-- Accesses that store nowhere keep all of that. -/
theorem Accesses.storeOnly {s t : State} (h : Accesses [] s t) : t.storeOnly = s.storeOnly := by
  induction h with
  | refl | charge => rfl
  | trans _ _ ih ih' => exact ih'.trans ih
  | read a s => obtain ⟨_, _, _, _, _, _, h⟩ := busRead_writes a s; rw [h]; rfl
  | write h => cases h
  | regs h => rw [h]; rfl

/-- Settles O36: the frame of every instruction, and of one that stores nothing the kinds of access it is left with. -/
theorem instructionsLeaveTheRestAlone : Obligations.InstructionsLeaveTheRestAlone := by
  intro i s t h
  have frame := exec_cpuFrame h
  have accesses := exec_accesses h
  refine ⟨⟨frame.nmiLatch, frame.irqLatch, frame.cart, frame.buttons1, frame.buttons2, frame.inputs, frame.frames,
      frame.audioTick, frame.dmaCycles⟩,
    ⟨frame.raster.line, frame.raster.dot, frame.raster.background, frame.raster.sprites, accesses.sprite0Hit⟩,
    fun noStore => ?_⟩
  rw [noStore] at accesses
  simpa only [State.storeOnly, Prod.mk.injEq] using accesses.storeOnly

end Sys2Proof.Machine
end

section
/-! SUPPORT. The CPU bus, row by row (20_memory.md R61, R62, R64): which addresses each device answers, and what a read and a
write do there. RAM and program ROM have their rows in the laws of the operations; these are the others. -/

namespace Sys2Proof.Machine

/-! ### Routing -/

section
variable {a : Addr}

theorem route_of_ppu (h : IsPpuAddr a) : route a = .ppuReg ((a.toNat - 0x2000) % 8) := by
  obtain ⟨low, high⟩ := h
  simp (disch := omega) only [route, if_pos, if_neg]

theorem route_of_dmaPort (h : a.toNat = 0x4014) : route a = .dmaPort := by
  simp (disch := omega) only [route, if_pos, if_neg]

theorem route_of_port1 (h : a.toNat = 0x4016) : route a = .port .one := by
  simp (disch := omega) only [route, if_pos, if_neg]

theorem route_of_port2 (h : a.toNat = 0x4017) : route a = .port .two := by
  simp (disch := omega) only [route, if_pos, if_neg]

/-- An address of the audio and input registers that is none of the three with a device of its own (R61 row 7). -/
def IsAudioAddr (a : Addr) : Prop :=
  0x4000 ≤ a.toNat ∧ a.toNat < 0x4020 ∧ a.toNat ≠ 0x4014 ∧ a.toNat ≠ 0x4016 ∧ a.toNat ≠ 0x4017

theorem route_of_audio (h : IsAudioAddr a) : route a = .audio := by
  obtain ⟨low, high, notDma, notPort1, notPort2⟩ := h
  simp (disch := omega) only [route, if_pos, if_neg]

theorem route_of_unmapped (low : 0x4020 ≤ a.toNat) (high : a.toNat < 0x8000) : route a = .nothing := by
  simp (disch := omega) only [route, if_neg]

/-- RAM answers below 0x2000 only. -/
theorem lt_of_route_ram {i : Nat} (h : route a = .ram i) : a.toNat < 0x2000 := by
  by_contra notRam
  simp (disch := omega) only [route, if_neg] at h
  split_ifs at h

/-- The PPU's registers answer at 0x2000 to 0x3FFF only. -/
theorem isPpuAddr_of_route {k : Nat} (h : route a = .ppuReg k) : IsPpuAddr a := by
  by_cases ram : a.toNat < 0x2000
  · rw [route_of_ram ram] at h; cases h
  · refine ⟨by omega, ?_⟩
    by_contra notPpu
    simp (disch := omega) only [route, if_neg] at h
    split_ifs at h

end

/-! ### Reading -/

theorem busRead_of_ppu {a : Addr} (h : IsPpuAddr a) (s : State) :
    busRead a s = ((ppuRegRead ((a.toNat - 0x2000) % 8) s.ppu).1,
      s.setPpu (ppuRegRead ((a.toNat - 0x2000) % 8) s.ppu).2) := by
  rw [busRead, route_of_ppu h]

theorem busRead_of_audio {a : Addr} (h : IsAudioAddr a) (s : State) : busRead a s = (0x00#8, s) := by
  rw [busRead, route_of_audio h]

theorem busRead_of_unmapped {a : Addr} (low : 0x4020 ≤ a.toNat) (high : a.toNat < 0x8000) (s : State) :
    busRead a s = (0x00#8, s) := by
  rw [busRead, route_of_unmapped low high]

theorem busRead_of_dmaPort {a : Addr} (h : a.toNat = 0x4014) (s : State) : busRead a s = (0x00#8, s) := by
  rw [busRead, route_of_dmaPort h]

theorem busRead_of_port1 {a : Addr} (h : a.toNat = 0x4016) (s : State) :
    busRead a s = ((controllerRead s.port1).1, s.setPort1 (controllerRead s.port1).2) := by
  rw [busRead, route_of_port1 h]

theorem busRead_of_port2 {a : Addr} (h : a.toNat = 0x4017) (s : State) :
    busRead a s = ((controllerRead s.port2).1, s.setPort2 (controllerRead s.port2).2) := by
  rw [busRead, route_of_port2 h]

/-- Where a 16 KiB image holds the byte of an address: the window has it twice (R63). -/
theorem prgIndex_k16 (a : Addr) : prgIndex PrgSize.k16.bytes a = (a.toNat - 0x8000) % 0x4000 := rfl

/-- Where a 32 KiB image holds the byte of an address: the window has it once (R63). -/
theorem prgIndex_k32 (a : Addr) : prgIndex PrgSize.k32.bytes a = a.toNat - 0x8000 := by
  have high := a.isLt
  change (a.toNat - 0x8000) % 0x8000 = a.toNat - 0x8000
  omega

/-- The lower half of program ROM's window is the image's first 16 KiB, whatever its size (R61 row 8). -/
theorem prgByte_of_lower {a : Addr} (low : 0x8000 ≤ a.toNat) (high : a.toNat < 0xC000) (cart : Cartridge) :
    prgByte cart a = cart.prg.read (a.toNat - 0x8000) := by
  rw [prgByte]
  cases cart.prgSize with
  | k16 => rw [prgIndex_k16, Nat.mod_eq_of_lt (by omega)]
  | k32 => rw [prgIndex_k32]

/-- The upper half is an image of 16 KiB again, or the second half of one of 32 KiB (R61 row 9). -/
theorem prgByte_of_upper {a : Addr} (low : 0xC000 ≤ a.toNat) (cart : Cartridge) :
    prgByte cart a =
      cart.prg.read (if cart.prgSize.bytes ≤ 0x4000 then a.toNat - 0xC000 else a.toNat - 0x8000) := by
  have high := a.isLt
  have again : (a.toNat - 0x8000) % 0x4000 = a.toNat - 0xC000 := by omega
  rw [prgByte]
  cases cart.prgSize with
  | k16 => rw [prgIndex_k16, again, if_pos (by decide)]
  | k32 => rw [prgIndex_k32, if_neg (by decide)]

/-- Settles O37: each row by what answers there. -/
theorem readRouting : Obligations.ReadRouting := by
  intro a s
  refine ⟨fun h => ?ram, fun h => ?ramMirror, fun h => ?ppu, fun h => ?dma, fun h => ?port1, fun h => ?port2,
    fun h => ?audio, fun h => ?romLower, fun h => ?romUpper, fun h => ?unmapped⟩
  case ram => rw [busRead_of_ram (by omega), Nat.mod_eq_of_lt h]
  case ramMirror => exact busRead_of_ram h.2 s
  case ppu => exact busRead_of_ppu h s
  case dma => exact busRead_of_dmaPort h s
  case port1 => exact busRead_of_port1 h s
  case port2 => exact busRead_of_port2 h s
  case audio => exact busRead_of_audio h s
  case romLower => rw [busRead_of_rom h.1, prgByte_of_lower h.1 h.2]
  case romUpper => rw [busRead_of_rom (by omega), prgByte_of_upper h]
  case unmapped => exact busRead_of_unmapped h.1 h.2 s

/-! ### Writing -/

theorem busWrite_of_audio {a : Addr} (h : IsAudioAddr a) (v : Byte) (s : State) :
    busWrite a v s = s.setOut { s.out with audioWrites := s.out.audioWrites ++ [(a, v)] } := by
  rw [busWrite, route_of_audio h]; rfl

theorem busWrite_of_rom {a : Addr} (h : 0x8000 ≤ a.toNat) (v : Byte) (s : State) : busWrite a v s = s := by
  rw [busWrite, route_of_rom h]

theorem busWrite_of_unmapped {a : Addr} (low : 0x4020 ≤ a.toNat) (high : a.toNat < 0x8000) (v : Byte) (s : State) :
    busWrite a v s = s := by
  rw [busWrite, route_of_unmapped low high]

/-- A write from 0x2000 on keeps RAM. -/
theorem busWrite_ram_of_not_ram {a : Addr} (h : 0x2000 ≤ a.toNat) (v : Byte) (s : State) :
    (busWrite a v s).ram = s.ram := by
  unfold busWrite
  generalize hr : route a = r
  cases r with
  | ram i => exact absurd (lt_of_route_ram hr) (by omega)
  | port p => cases p <;> rfl
  | _ => rfl

/-- A write to another address than a PPU register's keeps the PPU. -/
theorem busWrite_ppu_of_not_ppu {a : Addr} (h : ¬ IsPpuAddr a) (v : Byte) (s : State) : (busWrite a v s).ppu = s.ppu := by
  unfold busWrite
  generalize hr : route a = r
  cases r with
  | ppuReg k => exact absurd (isPpuAddr_of_route hr) h
  | port p => cases p <;> rfl
  | _ => rfl

/-! ### Looking at memory -/

theorem peek_of_ram {a : Addr} (h : a.toNat < 0x2000) (s : State) : s.peek a = s.ram.read (a.toNat % 0x800) := by
  rw [State.peek, busRead_of_ram h]

theorem peek_of_rom {a : Addr} (h : 0x8000 ≤ a.toNat) (s : State) : s.peek a = prgByte s.cart a := by
  rw [State.peek, busRead_of_rom h]

/-- From 0x2000 on no read looks at RAM. -/
theorem peek_setRam_of_not_ram {a : Addr} (h : 0x2000 ≤ a.toNat) (m : Memory) (s : State) :
    (s.setRam m).peek a = s.peek a := by
  unfold State.peek busRead
  generalize hr : route a = r
  cases r with
  | ram i => exact absurd (lt_of_route_ram hr) (by omega)
  | port p => cases p <;> rfl
  | _ => rfl

/-- A byte written to RAM is read back there and at its mirrors (R75). -/
theorem peek_busWrite_same {a b : Addr} (h : SameRamByte a b) (v : Byte) (s : State) : (busWrite a v s).peek b = v := by
  obtain ⟨ha, hb, same⟩ := h
  rw [peek_of_ram hb, busWrite_of_ram ha, State.setRam_ram, same, Memory.read_write_same]

/-- A byte written to RAM changes no other byte. -/
theorem peek_busWrite_other {a b : Addr} (ha : a.toNat < 0x2000) (h : ¬ SameRamByte a b) (v : Byte) (s : State) :
    (busWrite a v s).peek b = s.peek b := by
  rw [busWrite_of_ram ha]
  by_cases hb : b.toNat < 0x2000
  · have other : b.toNat % 0x800 ≠ a.toNat % 0x800 := fun e => h ⟨ha, hb, e.symm⟩
    rw [peek_of_ram hb, peek_of_ram hb, State.setRam_ram, Memory.read_write_ne _ v other]
  · exact peek_setRam_of_not_ram (by omega) _ s

/-- Settles O38: each row by what answers there, and the laws of RAM for what is read back. -/
theorem writeRouting : Obligations.WriteRouting := by
  intro a v s
  refine ⟨fun h => ?ram, fun h => ?ramMirror, fun h => ?ppu, fun h => ?dma, fun h => ?port1, fun h => ?port2,
    fun h => ?audio, fun h => ?rom, fun h => ?unmapped, fun h b => ⟨fun same => ?readBack, fun other => ?readBefore⟩⟩
  case ram => rw [busWrite_of_ram (by omega), Nat.mod_eq_of_lt h]
  case ramMirror => exact busWrite_of_ram h.2 v s
  case ppu => rw [busWrite, route_of_ppu h]
  case dma => rw [busWrite, route_of_dmaPort h]; rfl
  case port1 => rw [busWrite, route_of_port1 h]
  case port2 => rw [busWrite, route_of_port2 h]
  case audio => exact busWrite_of_audio h v s
  case rom => exact busWrite_of_rom h v s
  case unmapped => exact busWrite_of_unmapped h.1 h.2 v s
  case readBack => exact peek_busWrite_same same v s
  case readBefore => exact peek_busWrite_other h other v s

/-! ### Reads with an effect (R64) -/

/-- A read of the data register changes the read buffer and the video address at most (60_exceptions.md R331). -/
theorem readVramData_post (p : Ppu) : ∃ b w, (readVramData p).2 = { p with readBuf := b, vramAddr := w } := by
  unfold readVramData
  simp only
  split
  · exact ⟨p.readBuf, _, rfl⟩
  · exact ⟨_, _, rfl⟩

/-- Of the PPU's registers, only the status and the data register have a read effect (R329 to R332). -/
theorem ppuRegRead_post_of_no_effect {k : Nat} (status : k ≠ 2) (data : k ≠ 7) (p : Ppu) : (ppuRegRead k p).2 = p := by
  unfold ppuRegRead
  split
  · exact absurd rfl status
  · rfl
  · exact absurd rfl data
  · rfl

/-- A read has no effect but at a status or data register of the PPU and at the two controller ports. -/
theorem busRead_post_of_no_effect {a : Addr} (register : IsPpuAddr a → a.toNat % 8 ≠ 2 ∧ a.toNat % 8 ≠ 7)
    (port1 : a.toNat ≠ 0x4016) (port2 : a.toNat ≠ 0x4017) (s : State) : (busRead a s).2 = s := by
  by_cases ram : a.toNat < 0x2000
  · rw [busRead_of_ram ram]
  by_cases ppu : a.toNat < 0x4000
  · have isPpu : IsPpuAddr a := ⟨by omega, ppu⟩
    obtain ⟨status, data⟩ := register isPpu
    rw [busRead_of_ppu isPpu, ppuRegRead_post_of_no_effect (by omega) (by omega)]
    rfl
  by_cases dma : a.toNat = 0x4014
  · rw [busRead_of_dmaPort dma]
  by_cases audio : a.toNat < 0x4020
  · rw [busRead_of_audio ⟨by omega, audio, dma, port1, port2⟩]
  by_cases rom : 0x8000 ≤ a.toNat
  · rw [busRead_of_rom rom]
  · rw [busRead_of_unmapped (by omega) (by omega)]

/-- A PPU register's offset is its address modulo 8. -/
theorem ppuOffset {a : Addr} (h : IsPpuAddr a) : (a.toNat - 0x2000) % 8 = a.toNat % 8 := by
  obtain ⟨low, _⟩ := h
  omega

/-- Settles O39: the four read effects each by its device, every other address by the rows with none; the writes by theirs. -/
theorem readsAreIdempotent : Obligations.ReadsAreIdempotent := by
  intro a v s
  refine ⟨fun ⟨low, high, status⟩ => ?status, fun ⟨low, high, data⟩ => ?data, fun h => ?port1, fun h => ?port2,
    fun ⟨notStatus, notData, notPort1, notPort2⟩ => ?noEffect, fun h => busWrite_of_ram h v s, fun h => ?ignored,
    fun h => ?audio⟩
  case status => rw [busRead_of_ppu ⟨low, high⟩, ppuOffset ⟨low, high⟩, status]; rfl
  case data =>
    obtain ⟨b, w, effect⟩ := readVramData_post s.ppu
    refine ⟨b, w, ?_⟩
    rw [busRead_of_ppu ⟨low, high⟩, ppuOffset ⟨low, high⟩, data, ← effect]
    rfl
  case port1 => rw [busRead_of_port1 h]; rfl
  case port2 => rw [busRead_of_port2 h]; rfl
  case noEffect =>
    have noEffect : (busRead a s).2 = s := busRead_post_of_no_effect
      (fun h => ⟨fun e => notStatus ⟨h.1, h.2, e⟩, fun e => notData ⟨h.1, h.2, e⟩⟩) notPort1 notPort2 s
    exact ⟨noEffect, by rw [noEffect]⟩
  case ignored =>
    by_cases rom : 0x8000 ≤ a.toNat
    · exact busWrite_of_rom rom v s
    · exact busWrite_of_unmapped h (by omega) v s
  case audio => rw [busWrite_of_audio h]; rfl

end Sys2Proof.Machine
end

section
/-! SUPPORT. Memory under an instruction (20_memory.md R72): what its accesses leave of RAM and of the PPU's memories. -/

namespace Sys2Proof.Machine

/-- The four memories of the PPU. -/
def Ppu.memories (p : Ppu) : Memory × Memory × Memory × Memory := (p.pat, p.vram, p.oam, p.pal)

section
variable {stored : List Addr} {s t : State}

/-- Accesses keep a byte of RAM that no address they store to names. -/
theorem Accesses.ram_read {k : Nat} (h : Accesses stored s t)
    (other : ∀ e ∈ stored, e.toNat < 0x2000 → k ≠ e.toNat % 0x800) : t.ram.read k = s.ram.read k := by
  induction h with
  | refl | charge => rfl
  | trans _ _ ih ih' => exact ih'.trans ih
  | read a s => rw [busRead_ram]
  | @write a mem v s =>
    by_cases ram : a.toNat < 0x2000
    · rw [busWrite_of_ram ram, State.setRam_ram, Memory.read_write_ne _ v (other a mem ram)]
    · rw [busWrite_ram_of_not_ram (by omega)]
  | regs h => rw [h]; rfl

/-- Accesses that store to no PPU register keep the PPU's memories: a read changes none of them. -/
theorem Accesses.ppu_memories (h : Accesses stored s t) (noPpu : ∀ e ∈ stored, ¬ IsPpuAddr e) :
    t.ppu.memories = s.ppu.memories := by
  induction h with
  | refl | charge => rfl
  | trans _ _ ih ih' => exact ih'.trans ih
  | read a s => obtain ⟨_, _, _, _, _, _, h⟩ := busRead_writes a s; rw [h]; rfl
  | write mem v s => rw [busWrite_ppu_of_not_ppu (noPpu _ mem)]
  | regs h => rw [h]; rfl

/-- A byte of RAM or program ROM that no address stored to names reads as before. -/
theorem Accesses.peek {a : Addr} (h : Accesses stored s t) (cart : t.cart = s.cart) (memory : IsMemory a)
    (other : ∀ e ∈ stored, ¬ SameRamByte e a) : t.peek a = s.peek a := by
  obtain ram | rom := memory
  · rw [peek_of_ram ram, peek_of_ram ram]
    exact h.ram_read fun e mem he same => other e mem ⟨he, ram, same.symm⟩
  · rw [peek_of_rom rom, peek_of_rom rom, cart]

end

/-- Settles O35: an instruction's accesses store at its addresses only, and nothing but a store changes memory. -/
theorem memoryChangesOnlyWhereStored : Obligations.MemoryChangesOnlyWhereStored := by
  intro i s t h
  have accesses := exec_accesses h
  refine ⟨fun a memory other => accesses.peek (exec_cpuFrame h).cart memory other, fun noPpu => ?_⟩
  have memories := accesses.ppu_memories noPpu
  simp only [Ppu.memories, Prod.mk.injEq] at memories
  obtain ⟨pat, vram, oam, pal⟩ := memories
  exact ⟨fun k => by rw [pat], fun k => by rw [vram], fun k => by rw [oam], fun k => by rw [pal]⟩

end Sys2Proof.Machine
end

section
/-! SUPPORT. The PPU bus (20_memory.md R66 to R68): three ranges, pattern memory, video memory and the palette, each a memory
of its own and an index in it. -/

namespace Sys2Proof.Machine

/-! ### The ranges -/

section
variable {a : Addr}

theorem busReadPpu_of_pattern (h : a.toNat % 0x4000 < 0x2000) (p : Ppu) :
    busReadPpu a p = p.pat.read (a.toNat % 0x4000) := by
  simp only [busReadPpu, if_pos h]

theorem busWritePpu_of_pattern (h : a.toNat % 0x4000 < 0x2000) (v : Byte) (p : Ppu) :
    busWritePpu a v p = { p with pat := p.pat.write (a.toNat % 0x4000) v } := by
  simp only [busWritePpu, if_pos h]

/-- Video memory answers twice, the second time 0x1000 further on: the first time less 0x2000. -/
theorem vramIndex_first {n : Nat} (low : 0x2000 ≤ n) (high : n < 0x3000) : (n - 0x2000) % 0x1000 = n - 0x2000 :=
  Nat.mod_eq_of_lt (by omega)

/-- The second time less 0x3000. -/
theorem vramIndex_second {n : Nat} (low : 0x3000 ≤ n) (high : n < 0x3F00) : (n - 0x2000) % 0x1000 = n - 0x3000 := by
  omega

theorem busReadPpu_of_vram (low : 0x2000 ≤ a.toNat % 0x4000) (high : a.toNat % 0x4000 < 0x3F00) (p : Ppu) :
    busReadPpu a p = p.vram.read ((a.toNat % 0x4000 - 0x2000) % 0x1000) := by
  simp only [busReadPpu, if_neg (Nat.not_lt.mpr low), if_pos high]
  split
  · next first => rw [vramIndex_first low first]
  · next second => rw [vramIndex_second (Nat.not_lt.mp second) high]

theorem busWritePpu_of_vram (low : 0x2000 ≤ a.toNat % 0x4000) (high : a.toNat % 0x4000 < 0x3F00) (v : Byte) (p : Ppu) :
    busWritePpu a v p = { p with vram := p.vram.write ((a.toNat % 0x4000 - 0x2000) % 0x1000) v } := by
  simp only [busWritePpu, if_neg (Nat.not_lt.mpr low), if_pos high]
  split
  · next first => rw [vramIndex_first low first]
  · next second => rw [vramIndex_second (Nat.not_lt.mp second) high]

/-- The palette answers every 32 addresses, so an address modulo 32 names its entry. -/
theorem palette_mod (n : Nat) : n % 0x4000 % 0x20 = n % 32 := Nat.mod_mod_of_dvd n (by decide)

theorem busReadPpu_of_palette (h : 0x3F00 ≤ a.toNat % 0x4000) (p : Ppu) :
    busReadPpu a p = p.pal.read (palReadIndex (a.toNat % 32)) := by
  simp (disch := omega) only [busReadPpu, if_neg, palRead, palette_mod]

theorem busWritePpu_of_palette (h : 0x3F00 ≤ a.toNat % 0x4000) (v : Byte) (p : Ppu) :
    busWritePpu a v p = { p with pal := p.pal.write (palWriteIndex (a.toNat % 32)) v } := by
  simp (disch := omega) only [busWritePpu, if_neg, palette_mod]

end

/-! ### The palette's cells (R68) -/

theorem palReadIndex_eq_getD : ∀ i < 32, palReadIndex i =
    [0, 1, 2, 3, 0, 5, 6, 7, 0, 9, 10, 11, 0, 13, 14, 15,
      0, 17, 18, 19, 4, 21, 22, 23, 8, 25, 26, 27, 12, 29, 30, 31].getD i 0 := by decide

theorem palWriteIndex_eq_getD : ∀ i < 32, palWriteIndex i =
    [0, 1, 2, 3, 4, 5, 6, 7, 8, 9, 10, 11, 12, 13, 14, 15,
      0, 17, 18, 19, 4, 21, 22, 23, 8, 25, 26, 27, 12, 29, 30, 31].getD i 0 := by decide

/-! ### Read after write -/

section
variable {a b : Addr}

/-- Below the palette a written byte is read back at its address and, in video memory, at its mirror. -/
theorem busReadPpu_busWritePpu_below (ha : a.toNat % 0x4000 < 0x3F00) (hb : b.toNat % 0x4000 < 0x3F00) (v : Byte)
    (p : Ppu) :
    busReadPpu b (busWritePpu a v p) =
      if b.toNat % 0x4000 = a.toNat % 0x4000 ∨
          (0x2000 ≤ a.toNat % 0x4000 ∧ b.toNat % 0x4000 = a.toNat % 0x4000 + 0x1000) ∨
          (0x2000 ≤ b.toNat % 0x4000 ∧ a.toNat % 0x4000 = b.toNat % 0x4000 + 0x1000)
      then v else busReadPpu b p := by
  obtain pa | va := Nat.lt_or_ge (a.toNat % 0x4000) 0x2000
  · rw [busWritePpu_of_pattern pa]
    obtain pb | vb := Nat.lt_or_ge (b.toNat % 0x4000) 0x2000
    · rw [busReadPpu_of_pattern pb, busReadPpu_of_pattern pb, Memory.read_write]
      exact if_congr (by omega) rfl rfl
    · rw [busReadPpu_of_vram vb hb, busReadPpu_of_vram vb hb, if_neg (by omega)]
  · rw [busWritePpu_of_vram va ha]
    obtain pb | vb := Nat.lt_or_ge (b.toNat % 0x4000) 0x2000
    · rw [busReadPpu_of_pattern pb, busReadPpu_of_pattern pb, if_neg (by omega)]
    · rw [busReadPpu_of_vram vb hb, busReadPpu_of_vram vb hb, Memory.read_write]
      exact if_congr (by omega) rfl rfl

/-- A byte written to the palette is read back wherever its cell is read. -/
theorem busReadPpu_busWritePpu_palette (ha : 0x3F00 ≤ a.toNat % 0x4000) (hb : 0x3F00 ≤ b.toNat % 0x4000) (v : Byte)
    (p : Ppu) :
    busReadPpu b (busWritePpu a v p) =
      if palReadIndex (b.toNat % 32) = palWriteIndex (a.toNat % 32) then v else busReadPpu b p := by
  rw [busWritePpu_of_palette ha, busReadPpu_of_palette hb, busReadPpu_of_palette hb, Memory.read_write]

/-- A byte written below the palette changes no palette cell. -/
theorem busReadPpu_palette_of_below (ha : a.toNat % 0x4000 < 0x3F00) (hb : 0x3F00 ≤ b.toNat % 0x4000) (v : Byte)
    (p : Ppu) : busReadPpu b (busWritePpu a v p) = busReadPpu b p := by
  rw [busReadPpu_of_palette hb, busReadPpu_of_palette hb]
  obtain pa | va := Nat.lt_or_ge (a.toNat % 0x4000) 0x2000
  · rw [busWritePpu_of_pattern pa]
  · rw [busWritePpu_of_vram va ha]

/-- A byte written to the palette changes nothing below it. -/
theorem busReadPpu_below_of_palette (ha : 0x3F00 ≤ a.toNat % 0x4000) (hb : b.toNat % 0x4000 < 0x3F00) (v : Byte)
    (p : Ppu) : busReadPpu b (busWritePpu a v p) = busReadPpu b p := by
  rw [busWritePpu_of_palette ha]
  obtain pb | vb := Nat.lt_or_ge (b.toNat % 0x4000) 0x2000
  · rw [busReadPpu_of_pattern pb, busReadPpu_of_pattern pb]
  · rw [busReadPpu_of_vram vb hb, busReadPpu_of_vram vb hb]

end

/-- Settles O45: range by range, the palette's formulas being the two lists. -/
theorem ppuBusRoutingAndPaletteMirrors : Obligations.PpuBusRoutingAndPaletteMirrors := by
  unfold Obligations.PpuBusRoutingAndPaletteMirrors
  intro reads writes a b v p
  have cellRead (i : Addr) : palReadIndex (i.toNat % 32) = reads.getD (i.toNat % 32) 0 :=
    palReadIndex_eq_getD _ (Nat.mod_lt _ (by decide))
  have cellWritten (i : Addr) : palWriteIndex (i.toNat % 32) = writes.getD (i.toNat % 32) 0 :=
    palWriteIndex_eq_getD _ (Nat.mod_lt _ (by decide))
  refine ⟨fun h => ⟨busReadPpu_of_pattern h p, busWritePpu_of_pattern h v p⟩, fun ⟨low, high⟩ => ?vram,
    fun ⟨low, high⟩ => ?vramMirror, fun h => ?palette, fun h => busReadPpu_busWritePpu_below h.1 h.2 v p, fun h => ?cells,
    ?apart⟩
  case vram =>
    rw [← vramIndex_first low high]
    exact ⟨busReadPpu_of_vram low (by omega) p, busWritePpu_of_vram low (by omega) v p⟩
  case vramMirror =>
    rw [← vramIndex_second low high]
    exact ⟨busReadPpu_of_vram (by omega) high p, busWritePpu_of_vram (by omega) high v p⟩
  case palette =>
    rw [← cellRead, ← cellWritten]
    exact ⟨busReadPpu_of_palette h p, busWritePpu_of_palette h v p⟩
  case cells =>
    rw [← cellRead, ← cellWritten]
    exact busReadPpu_busWritePpu_palette h.1 h.2 v p
  case apart =>
    rintro (h | h)
    · exact busReadPpu_palette_of_below h.1 h.2 v p
    · exact busReadPpu_below_of_palette h.1 h.2 v p

end Sys2Proof.Machine
end

section
/-! SUPPORT. The fetch (40_addressing_modes.md R130 items 2 to 4): one bus read for each byte, PC moved past it. -/

namespace Sys2Proof

theorem Mode.operandBytes_le (m : Mode) : m.operandBytes ≤ 2 := by cases m <;> decide

/-- Every instruction has one to three bytes (30_encoding.md R100). -/
theorem Instr.length_cases (i : Instr) : i.length = 1 ∨ i.length = 2 ∨ i.length = 3 := by
  have operand (m : Mode) : 1 + m.operandBytes = 1 ∨ 1 + m.operandBytes = 2 ∨ 1 + m.operandBytes = 3 := by
    have := Mode.operandBytes_le m
    omega
  cases i
  case lda | ldx | ldy | adc | sbc | and | ora | eor | cmp | cpx | cpy | sta | stx | sty | bit | inc | dec | lax | sax |
      dcp | isb | slo | rla | sre | rra | asl | lsr | rol | ror | nopUnofficial => exact operand _
  all_goals simp [Instr.length]

namespace Machine

/-- No device looks at the CPU registers. -/
theorem busRead_withCpu (a : Addr) (s : State) (c : Cpu) :
    busRead a (s.withCpu c) = ((busRead a s).1, (busRead a s).2.withCpu c) := by
  unfold busRead
  cases route a with
  | port p => cases p <;> rfl
  | _ => rfl

@[simp] theorem State.withCpu_cpu (s : State) (c : Cpu) : (s.withCpu c).cpu = c := rfl

/-- A byte fetched with the registers `c` is a bus read at their PC, which is then one past it. -/
theorem fetch8_withCpu (t : State) (c : Cpu) :
    fetch8 (t.withCpu c) = ((busRead c.pc t).1, (busRead c.pc t).2.withCpu { c with pc := c.pc + 1#16 }) := by
  simp only [fetch8, State.withCpu_cpu, busRead_withCpu]
  rfl

/-- Settles O6: each byte in turn is the bus read it is, and the number of bytes is the opcode's. -/
theorem fetchGoesThroughTheBus : Obligations.FetchGoesThroughTheBus := by
  intro s pc op l h
  have first : fetch8 s = (op.1, op.2.withCpu { s.cpu with pc := pc + 1#16 }) := fetch8_withCpu s s.cpu
  have second : fetch8 (op.2.withCpu { s.cpu with pc := pc + 1#16 }) =
      (l.1, l.2.withCpu { s.cpu with pc := pc + 2#16 }) := by
    have next : pc + 1#16 + 1#16 = pc + 2#16 := by bv_omega
    rw [fetch8_withCpu, next]
  have third : fetch8 (l.2.withCpu { s.cpu with pc := pc + 2#16 }) =
      (h.1, h.2.withCpu { s.cpu with pc := pc + 3#16 }) := by
    have next : pc + 2#16 + 1#16 = pc + 3#16 := by bv_omega
    rw [fetch8_withCpu, next]
  refine ⟨fun one => ?_, fun two => ?_, fun three => ?_, Instr.length_cases _⟩
  · simp only [fetchInstr, first, one]
  · simp only [fetchInstr, first, second, two]
  · simp only [fetchInstr, first, second, third, three]

end Machine

end Sys2Proof
end

section
/-! SUPPORT. Decoding and encoding (30_encoding.md R100 to R106). The opcode matrix is read over all 256 bytes, each of the
encoder's tables over its entries, both with the operand bytes left open; a list of bytes is an opcode and its operand. -/

namespace Sys2Proof

/-! ### The encoder -/

theorem encode_of_opcode {i : Instr} {op : Byte} (h : i.opcode = some op) : encode i = op :: i.operand := by
  rw [encode, h]

/-- Every instruction is encoded in as many bytes as are fetched for it. -/
theorem Laws.EncodedLength.statement (i : Instr) : Statement i :=
  Instr.casesOn i lda ldx ldy sta stx sty tax tay txa tya tsx txs adc sbc and ora eor bit cmp cpx cpy inc dec inx iny dex
    dey asl lsr rol ror pha php pla plp clc sec cli sei cld sed clv nop jmpAbs jmpInd jsr rts bpl bmi bvc bvs bcc bcs bne
    beq brk rti lax sax dcp isb slo rla sre rra nopUnofficial sbcAlias kil anc alr arr xaa lxa axs ahx shy shx tas las

/-- A well-formed instruction has an opcode byte, and that byte asks for the instruction's operand (R100). -/
theorem Instr.opcode_of_wellFormed {i : Instr} (h : i.wellFormed = true) :
    ∃ op, i.opcode = some op ∧ opcodeLength op = i.length ∧ i.operand.length + 1 = opcodeLength op := by
  obtain ⟨length, -, -, op, operand, encoded, fetched⟩ := Laws.EncodedLength.statement i h
  cases opcode : i.opcode with
  | none => simp [encode, opcode] at encoded
  | some op' =>
    rw [encode_of_opcode opcode] at encoded length
    obtain ⟨rfl, rfl⟩ := List.cons.inj encoded
    exact ⟨op', rfl, fetched, length.trans fetched.symm⟩

/-! ### The matrix: what the decoder makes of each opcode byte -/

/-- The 256 byte values, in the rows of the matrix (R104). -/
def byteRows : List (List Byte) :=
  (List.range 16).map fun row => (List.range 16).map fun col => BitVec.ofNat 8 (16 * row + col)

theorem mem_byteRows (b : Byte) : ∃ row ∈ byteRows, b ∈ row := by
  have value := b.isLt
  refine ⟨_, List.mem_map.mpr ⟨b.toNat / 16, List.mem_range.mpr (by omega), rfl⟩,
    List.mem_map.mpr ⟨b.toNat % 16, List.mem_range.mpr (by omega), ?_⟩⟩
  rw [Nat.div_add_mod, BitVec.ofNat_toNat, BitVec.setWidth_eq]

/-- Two functions whose values agree all through the rows agree on every byte. -/
theorem eq_of_byteRows {α : Type} {f g : Byte → α} (h : byteRows.map (List.map f) = byteRows.map (List.map g)) (b : Byte) :
    f b = g b := by
  obtain ⟨row, isRow, inRow⟩ := mem_byteRows b
  exact List.map_inj_left.mp (List.map_inj_left.mp h row isRow) b inRow

theorem opcodeLength_cases (op : Byte) : opcodeLength op = 1 ∨ opcodeLength op = 2 ∨ opcodeLength op = 3 :=
  Instr.length_cases _

/-- The operand bytes of an instruction of `n` bytes (R101, R102). -/
def operandOf (n : Nat) (l h : Byte) : List Byte :=
  match n with
  | 1 => []
  | 2 => [l]
  | _ => addrBytes (word h l)

section
variable (op l h : Byte)

theorem decodeOp_wellFormed : (decodeOp op l h).wellFormed = true :=
  eq_of_byteRows (f := fun op => (decodeOp op l h).wellFormed) (g := fun _ => true) rfl op

theorem decodeOp_opcode : (decodeOp op l h).opcode = some op :=
  eq_of_byteRows (f := fun op => (decodeOp op l h).opcode) (g := some) rfl op

theorem decodeOp_operand : (decodeOp op l h).operand = operandOf (opcodeLength op) l h :=
  eq_of_byteRows (f := fun op => (decodeOp op l h).operand) (g := fun op => operandOf (opcodeLength op) l h) rfl op

theorem decodeOp_isReserved : (decodeOp op l h).isReserved = reservedOpcodes.contains op :=
  eq_of_byteRows (f := fun op => (decodeOp op l h).isReserved) (g := fun op => reservedOpcodes.contains op) rfl op

/-- The opcode byte alone determines the length (R100). -/
theorem decodeOp_length : (decodeOp op l h).length = opcodeLength op := by
  obtain ⟨op', opcode, length, -⟩ := Instr.opcode_of_wellFormed (decodeOp_wellFormed op l h)
  cases (decodeOp_opcode op l h).symm.trans opcode
  exact length.symm

end

/-! ### A list of bytes: an opcode, its operand, and the rest -/

/-- The instruction read from an opcode byte and the operand bytes after it. -/
def instrOf (op : Byte) (operand : List Byte) : Instr := decodeOp op (operand.getD 0 0) (operand.getD 1 0)

theorem instrOf_operand {op : Byte} {operand : List Byte} (len : operand.length + 1 = opcodeLength op) :
    (instrOf op operand).operand = operand := by
  have lengths := opcodeLength_cases op
  rw [instrOf, decodeOp_operand]
  rw [← len] at lengths ⊢
  match operand, lengths with
  | [], _ => rfl
  | [l], _ => rfl
  | [l, h], _ => simp [operandOf, addrBytes]

theorem decode_append {op : Byte} {operand : List Byte} (len : operand.length + 1 = opcodeLength op) (rest : List Byte) :
    decode (op :: (operand ++ rest)) = .ok (instrOf op operand) rest := by
  have lengths := opcodeLength_cases op
  rw [← len] at lengths
  match operand, len, lengths with
  | [], len, _ | [l], len, _ | [l, h], len, _ => simp [decode, ← len, instrOf]

theorem decode_eq_ok {bytes rest : List Byte} {i : Instr} (decoded : decode bytes = .ok i rest) :
    ∃ op operand, operand.length + 1 = opcodeLength op ∧ bytes = op :: (operand ++ rest) ∧ i = instrOf op operand := by
  cases bytes with
  | nil => cases decoded
  | cons op bytes =>
    unfold decode at decoded
    simp only at decoded
    split at decoded
    case h_1 one => cases decoded; exact ⟨op, [], one.symm, rfl, rfl⟩
    case h_2 l _ two => cases decoded; exact ⟨op, [l], two.symm, rfl, rfl⟩
    case h_3 l h _ three => cases decoded; exact ⟨op, [l, h], three.symm, rfl, rfl⟩
    case h_4 => cases decoded

/-- Settles O2: the bytes read are an opcode and its operand, of which the matrix makes an instruction with these bytes. -/
theorem encodeAfterDecode : Obligations.EncodeAfterDecode := by
  intro bytes rest i decoded
  obtain ⟨op, operand, len, rfl, rfl⟩ := decode_eq_ok decoded
  refine ⟨decodeOp_wellFormed _ _ _, ?_⟩
  have opcode : (instrOf op operand).opcode = some op := decodeOp_opcode _ _ _
  rw [encode_of_opcode opcode, instrOf_operand len, List.cons_append]

/-- Settles O3: after an opcode byte two bytes hold its operand, and the matrix has 25 reserved places. -/
theorem decodingIsTotal : Obligations.DecodingIsTotal := by
  intro op l h rest
  have lengths := opcodeLength_cases op
  have len : ((l :: h :: rest).take (opcodeLength op - 1)).length + 1 = opcodeLength op := by
    simp only [List.length_take, List.length_cons]
    omega
  refine ⟨instrOf op ((l :: h :: rest).take (opcodeLength op - 1)), (l :: h :: rest).drop (opcodeLength op - 1),
    ?_, ?_, ?_⟩
  · rw [← decode_append len, List.take_append_drop]
  · rw [instrOf, decodeOp_length]
  · rw [instrOf, decodeOp_isReserved, List.contains_iff_mem]

/-- Settles O4: each word by running the decoder on it. -/
theorem writtenWordsDecode : Obligations.WrittenWordsDecode := by
  unfold Obligations.WrittenWordsDecode
  decide

/-! ### The tables: what the decoder makes of each entry of the encoder's lists -/

theorem pickOpcode_eq_some {table : List (Mode × Byte)} {mode : Mode} {op : Byte}
    (h : pickOpcode table mode = some op) : (mode, op) ∈ table := by
  induction table with
  | nil => cases h
  | cons entry table ih =>
    obtain ⟨mode', op'⟩ := entry
    rw [pickOpcode] at h
    split at h
    · next same => cases h; rw [same]; exact List.mem_cons_self
    · exact List.mem_cons_of_mem _ (ih h)

theorem oneOf_eq_some {ops : List Byte} {op op' : Byte} (h : oneOf ops op = some op') : op = op' ∧ op ∈ ops := by
  rw [oneOf] at h
  split at h
  · next listed => exact ⟨Option.some.inj h, List.contains_iff_mem.mp listed⟩
  · cases h

/-- The memory operand of a mode and two operand bytes. -/
def Mem.read (l h : Byte) : Mode → Option Mem
  | .zp => some (.zp l)
  | .zpx => some (.zpx l)
  | .zpy => some (.zpy l)
  | .izx => some (.izx l)
  | .izy => some (.izy l)
  | .abs => some (.abs (word h l))
  | .abx => some (.abx (word h l))
  | .aby => some (.aby (word h l))
  | .imm | .rel | .imp | .acc | .ind => none

/-- A memory operand is read again from its mode and its own bytes. -/
theorem Mem.read_bytes (m : Mem) : Mem.read (m.bytes.getD 0 0) (m.bytes.getD 1 0) m.mode = some m := by
  cases m <;> simp [Mem.read, Mem.bytes, Mem.mode, addrBytes]

section
variable {op : Byte}

/-- The matrix has at `op` what `make` makes of a memory operand, if it has for every operand in the mode. -/
theorem instrOf_of_read {make : Mem → Instr} (m : Mem)
    (reads : ∀ l h, (Mem.read l h m.mode).map (fun _ => decodeOp op l h) = (Mem.read l h m.mode).map make) :
    instrOf op m.bytes = make m := by
  have read := reads (m.bytes.getD 0 0) (m.bytes.getD 1 0)
  rw [Mem.read_bytes] at read
  exact Option.some.inj read

/-- A table with whose every entry in a memory mode the matrix agrees; `wrap` makes a memory operand one of the table's
instruction. -/
theorem instrOf_of_table {α : Type} {table : List (Mode × Byte)} {make : α → Instr} (wrap : Mem → α) (m : Mem)
    (picked : pickOpcode table m.mode = some op)
    (reads : ∀ l h, table.map (fun e => (Mem.read l h e.1).map fun _ => decodeOp e.2 l h) =
      table.map fun e => (Mem.read l h e.1).map fun m => make (wrap m)) : instrOf op m.bytes = make (wrap m) :=
  instrOf_of_read (make := fun m => make (wrap m)) m fun l h => List.map_inj_left.mp (reads l h) _ (pickOpcode_eq_some picked)

/-- A list of opcode bytes of one mnemonic and form, with all of which the matrix agrees. -/
theorem instrOf_of_listed {ops operand : List Byte} {make : Byte → Instr} (op' : Byte) (listed : oneOf ops op' = some op)
    (reads : ops.map (fun op => instrOf op operand) = ops.map make) : instrOf op operand = make op' := by
  obtain ⟨rfl, mem⟩ := oneOf_eq_some listed
  exact List.map_inj_left.mp reads op' mem

/-- The no-operations of a memory mode (R268). -/
theorem decodeOp_of_nopOpcodes (l h : Byte) (mode : Mode) : ∀ op ∈ nopOpcodes mode,
    (Mem.read l h mode).map (fun _ => decodeOp op l h) = (Mem.read l h mode).map fun m => .nopUnofficial op (.mem m) :=
  List.map_inj_left.mp (by cases mode <;> rfl)

/-- A 16-bit operand is put together again from its two bytes. -/
theorem instrOf_addrBytes {make : Addr → Instr} (reads : ∀ l h, decodeOp op l h = make (word h l)) (w : Addr) :
    instrOf op (addrBytes w) = make w :=
  (reads (loByte w) (hiByte w)).trans (by rw [word_hiByte_loByte])

end

/-- The matrix undoes the tables. -/
theorem instrOf_opcode {i : Instr} {op : Byte} (h : i.opcode = some op) : instrOf op i.operand = i := by
  cases i
  case lda src | ldx src | ldy src | adc src | sbc src | and src | ora src | eor src | cmp src | cpx src | cpy src =>
    cases src with
    | imm v => cases h; rfl
    | mem m => exact instrOf_of_table Src.mem m h fun _ _ => rfl
  case sta m | stx m | sty m | bit m | inc m | dec m | lax m | sax m | dcp m | isb m | slo m | rla m | sre m | rra m =>
    exact instrOf_of_table id m h fun _ _ => rfl
  case asl dst | lsr dst | rol dst | ror dst =>
    cases dst with
    | acc => cases h; rfl
    | mem m => exact instrOf_of_table Dst.mem m h fun _ _ => rfl
  case nopUnofficial op' arg =>
    cases arg with
    | imp => exact instrOf_of_listed (make := fun op => .nopUnofficial op .imp) op' h rfl
    | imm v => exact instrOf_of_listed (make := fun op => .nopUnofficial op (.imm v)) op' h rfl
    | mem m =>
      obtain ⟨rfl, listed⟩ := oneOf_eq_some h
      exact instrOf_of_read m fun l h => decodeOp_of_nopOpcodes l h m.mode op' listed
  case kil op' | anc op' | ahx op' => exact instrOf_of_listed op' h rfl
  case jmpAbs w | jmpInd w | jsr w => cases h; exact instrOf_addrBytes (fun _ _ => rfl) w
  all_goals cases h; rfl

/-- Settles O1: a well-formed instruction is encoded as an opcode and its operand, and the matrix undoes the tables. -/
theorem decodeAfterEncode : Obligations.DecodeAfterEncode := by
  intro i rest wf
  obtain ⟨op, opcode, -, len⟩ := Instr.opcode_of_wellFormed wf
  rw [encode_of_opcode opcode, List.cons_append, decode_append len, instrOf_opcode opcode]

end Sys2Proof
end

section
/-! SUPPORT. The statements about 40_addressing_modes.md: effective addresses and extra cycles (O33), the cost of every
instruction (O34), and the step on an instruction in memory (O5). -/

namespace Sys2Proof.Machine

/-! ### Effective addresses and extra cycles -/

/-- The extra-cycle flag that an operand resolves to is the one its mode's rule gives (R144). -/
theorem resolve_extra (m : Mem) (s : State) : (resolve m s).extra = effExtra m s := by
  cases m <;> simp [resolve, effExtra, pageCross, readPointer_eq]

/-- Settles O33: an operand's address, its extra cycle and its effect, each by the lemma that says it. -/
theorem effectiveAddresses : Obligations.EffectiveAddresses := by
  intro m s
  calc resolve m s = ⟨(resolve m s).ea, (resolve m s).extra, (resolve m s).post⟩ := rfl
    _ = ⟨effAddr m s, effExtra m s, s⟩ := by rw [resolve_ea, resolve_extra, resolve_post]

/-! ### The cost of an access class (R145, R146) -/

/-- The cycles charged after what charges nothing. -/
theorem cycles_charge {s t : State} (h : t.out.cycles = s.out.cycles) (n : Nat) :
    (t.charge n).out.cycles = s.out.cycles + n := by
  rw [State.charge_cycles, h]

/-- The same, said of base cycles and an extra cycle. -/
theorem cycles_charge_extra {s t : State} (h : t.out.cycles = s.out.cycles) (base extra : Nat) :
    (t.charge (base + extra)).out.cycles = s.out.cycles + base + extra := by
  rw [cycles_charge h, Nat.add_assoc]

theorem readClass_imm_cycles {use : Byte → State → State} (h : ∀ v t, (use v t).out.cycles = t.out.cycles) (base : Nat)
    (v : Byte) (s : State) : (readClass base (.imm v) use s).out.cycles = s.out.cycles + base :=
  cycles_charge (h v s) base

theorem readMemClass_cycles {use : Byte → State → State} (h : ∀ v t, (use v t).out.cycles = t.out.cycles) (base : Nat)
    (m : Mem) (s : State) : (readMemClass base m use s).out.cycles = s.out.cycles + base + effExtra m s := by
  rw [readMemClass_eq, resolve_extra]
  exact cycles_charge_extra (by rw [h, busRead_out]) _ _

theorem readClass_mem_cycles {use : Byte → State → State} (h : ∀ v t, (use v t).out.cycles = t.out.cycles) (base : Nat)
    (m : Mem) (s : State) : (readClass base (.mem m) use s).out.cycles = s.out.cycles + base + effExtra m s :=
  readMemClass_cycles h base m s

theorem writeClass_cycles (base : Nat) (m : Mem) (v : Byte) (s : State) :
    (writeClass base m v s).out.cycles = s.out.cycles + base + effExtra m s := by
  rw [writeClass_eq, resolve_extra]
  exact cycles_charge_extra (busWrite_cycles _ v s) _ _

theorem rmwClass_cycles {new : Bool → Byte → Byte} {after : Byte → Byte → State → State}
    (h : ∀ m r t, (after m r t).out.cycles = t.out.cycles) (base : Nat) (m : Mem) (s : State) :
    (rmwClass base m new after s).out.cycles = s.out.cycles + base + effExtra m s := by
  rw [rmwClass_eq, resolve_extra]
  exact cycles_charge_extra (by rw [h, busWrite_cycles, busRead_out]) _ _

theorem branchClass_cycles (taken : Bool) (d : Byte) (s : State) : (branchClass taken d s).out.cycles =
    s.out.cycles + 2 + branchExtra d s.cpu.pc + if some taken = some true then 1 else 0 := by
  have extra : pageCross (branchTarget s.cpu.pc d) s.cpu.pc = branchExtra d s.cpu.pc := rfl
  cases taken <;> simp [branchClass, extra, Nat.add_assoc]

/-! ### Every instruction -/

/-- The base cycles of an instruction, by its access class and mode: what `exec` charges for it besides the extra cycle and
a taken branch. -/
def baseOf : Instr → Nat
  | .lda src | .ldx src | .ldy src | .adc src | .sbc src | .and src | .ora src | .eor src | .cmp src | .cpx src
  | .cpy src => srcBase src
  | .bit m | .lax m | .nopUnofficial _ (.mem m) => readBase m
  | .sta m | .stx m | .sty m | .sax m => writeBase m
  | .inc m | .dec m | .dcp m | .isb m | .slo m | .rla m | .sre m | .rra m => rmwBase m
  | .asl (.mem m) | .lsr (.mem m) | .rol (.mem m) | .ror (.mem m) => rmwBase m
  | .asl .acc | .lsr .acc | .rol .acc | .ror .acc | .nopUnofficial _ _ | .sbcAlias _ => 2
  | .tax | .tay | .txa | .tya | .tsx | .txs | .inx | .iny | .dex | .dey => 2
  | .clc | .sec | .cli | .sei | .cld | .sed | .clv | .nop => 2
  | .bpl _ | .bmi _ | .bvc _ | .bvs _ | .bcc _ | .bcs _ | .bne _ | .beq _ => 2
  | .pha | .php | .jmpAbs _ => 3
  | .pla | .plp => 4
  | .jmpInd _ => 5
  | .jsr _ | .rts | .rti => 6
  | .brk => 7
  | .kil _ | .anc _ | .alr | .arr | .xaa | .lxa | .axs | .ahx _ | .shy | .shx | .tas | .las => 0

/-- An instruction that completes costs its base cycles, its extra cycle and one more for a taken branch (R145). -/
theorem exec_cycles {i : Instr} {s t : State} (h : exec i s = .next t) : t.out.cycles =
    s.out.cycles + baseOf i + extraOf i s + (if branchTaken i s.cpu.p = some true then 1 else 0) := by
  cases i
  all_goals first
    | (cases h; done)
    | (injection h with h; subst h)
  case lda src | ldx src | ldy src | adc src | sbc src | and src | ora src | eor src | cmp src | cpx src | cpy src =>
    cases src with
    | imm v => exact readClass_imm_cycles (by simp [subWithBorrow]) 2 v s
    | mem m => exact readClass_mem_cycles (by simp [subWithBorrow]) (readBase m) m s
  case sbcAlias v => exact readClass_imm_cycles (by simp [subWithBorrow]) 2 v s
  case bit m | lax m => exact readMemClass_cycles (by simp [bitTest]) (readBase m) m s
  case sta m | stx m | sty m | sax m => exact writeClass_cycles (writeBase m) m _ s
  case inc m | dec m | dcp m | isb m | slo m | rla m | sre m | rra m =>
    exact rmwClass_cycles (by simp [subWithBorrow]) (rmwBase m) m s
  case asl dst | lsr dst | rol dst | ror dst =>
    cases dst with
    | acc => exact cycles_charge (by simp) 2
    | mem m => exact rmwClass_cycles (by simp) (rmwBase m) m s
  case nopUnofficial op arg =>
    cases arg with
    | imp | imm v => exact cycles_charge rfl 2
    | mem m =>
      rw [nopResolve, resolve_post, nopCost, resolve_extra]
      exact cycles_charge_extra rfl (readBase m) (effExtra m s)
  case bpl d | bmi d | bvc d | bvs d | bcc d | bcs d | bne d | beq d => exact branchClass_cycles _ d s
  case tax | tay | txa | tya | tsx | txs | inx | iny | dex | dey | clc | sec | cli | sei | cld | sed | clv | nop =>
    exact cycles_charge rfl 2
  case jmpAbs => exact cycles_charge rfl 3
  case jmpInd => exact cycles_charge (by rw [jumpIndirect, State.setPc_out, resolveIndirect_out]) 5
  case pha | php => exact cycles_charge (push_cycles _ s) 3
  case pla => exact cycles_charge (by rw [pullA, pull_eq]; rfl) 4
  case plp => exact cycles_charge (by rw [pullP, pull_eq]; rfl) 4
  case jsr => exact cycles_charge (push16_cycles _ s) 6
  case rts => exact cycles_charge (by rw [returnFromCall, pull16_eq]; rfl) 6
  case rti => exact cycles_charge (by rw [returnFromHandler_eq]; rfl) 6
  case brk => exact cycles_charge (enterHandler_cycles _ _ _ s) 7

/-- The printed table has the base cycles of what the matrix has at each opcode byte (R104, R107). -/
theorem decodeOp_baseOf (op l h : Byte) : baseOf (decodeOp op l h) = baseCycles op :=
  eq_of_byteRows (f := fun op => baseOf (decodeOp op l h)) (g := baseCycles) rfl op

/-- Settles O34: an instruction is what the matrix has at its opcode byte, where the table has its base cycles. -/
theorem cycleFormula : Obligations.CycleFormula := by
  intro i op s t opcode completes
  have base : baseOf i = baseCycles op := by
    rw [← instrOf_opcode opcode]
    exact decodeOp_baseOf op _ _
  rw [exec_cycles completes, base]

/-! ### The step on an instruction in memory (R130, 60_exceptions.md R350) -/

/-- Reading RAM or ROM has no effect (20_memory.md R61). -/
theorem busRead_of_memory {a : Addr} (h : IsMemory a) (s : State) : busRead a s = (s.peek a, s) := by
  obtain low | high := h
  · rw [State.peek, busRead_of_ram low]
  · rw [State.peek, busRead_of_rom high]

/-- An instruction whose bytes at PC are in RAM or ROM is fetched as decoded, and the fetch only moves PC past it. -/
theorem fetchInstr_of_memory {s : State} {i : Instr} {rest : List Byte}
    (memory : ∀ k, k < i.length → IsMemory (addrPlus s.cpu.pc k))
    (decoded : decode [s.peek s.cpu.pc, s.peek (addrPlus s.cpu.pc 1), s.peek (addrPlus s.cpu.pc 2)] = .ok i rest) :
    fetchInstr s = (i, s.withCpu { s.cpu with pc := addrPlus s.cpu.pc i.length }) := by
  obtain ⟨op, operand, len, bytes, rfl⟩ := decode_eq_ok decoded
  obtain ⟨rfl, tail⟩ := List.cons.inj bytes
  have length : (instrOf (s.peek s.cpu.pc) operand).length = operand.length + 1 := by
    rw [instrOf, decodeOp_length, len]
  rw [length] at memory ⊢
  have read (k : Nat) (h : k < operand.length + 1) :
      busRead (addrPlus s.cpu.pc k) s = (s.peek (addrPlus s.cpu.pc k), s) := busRead_of_memory (memory k h) s
  have first : busRead s.cpu.pc s = (s.peek s.cpu.pc, s) := by simpa [addrPlus] using read 0 (Nat.succ_pos _)
  obtain ⟨one, two, three, lengths⟩ := fetchGoesThroughTheBus s
  rw [first, ← len] at one two three lengths
  match operand, tail, lengths with
  | [], _, _ => exact one rfl
  | [l], tail, _ =>
    obtain ⟨rfl, -⟩ := List.cons.inj tail
    refine (two rfl).trans ?_
    rw [← addrPlus, read 1 (by simp)]
    rfl
  | [l, h], tail, _ =>
    obtain ⟨rfl, tail'⟩ := List.cons.inj tail
    obtain ⟨rfl, -⟩ := List.cons.inj tail'
    refine (three rfl).trans ?_
    rw [← addrPlus, read 1 (by simp), ← addrPlus, read 2 (by simp)]
    rfl

/-- Of the outputs, the PPU's dots leave the cycles, which the audio tick then counts (R350). -/
theorem finishStep_eq (s : State) :
    finishStep s = (ppuRun (3 * s.stepCycles) s).setOut
      { (ppuRun (3 * s.stepCycles) s).out with audioTick := s.stepCycles } := by
  have dots := ppuRun_frame (3 * s.stepCycles) s
  have cycles : (ppuRun (3 * s.stepCycles) s).stepCycles = s.stepCycles := by
    rw [State.stepCycles, dots.cycles, dots.dmaCycles, State.stepCycles]
  rw [finishStep, audioTick, Config.dotsPerCycle, cycles]

/-- Settles O5: the fetch gives the decoded instruction, and what follows `exec` is the PPU's dots and the audio tick. -/
theorem stepRunsDecodedInstruction : Obligations.StepRunsDecodedInstruction := by
  intro s i rest u pc v memory decoded
  refine ⟨(encodeAfterDecode _ _ _ decoded).1, ?_⟩
  have runs : cpuStep (runDma (beginStep s)) = exec i v := by
    rw [cpuStep, fetchInstr_of_memory memory decoded]
  rw [step, runs]
  cases exec i v with
  | next t => exact congrArg Host.Outcome.next (finishStep_eq t)
  | fault f => rfl
  | refused r => rfl

end Sys2Proof.Machine
end

section
/-! SUPPORT. The statements about 41_load_store_transfer.md: loads (O9), stores (O10) and transfers (O11), each access class
by its operand's address and extra cycle, and `SetZN` as one update of P. -/

namespace Sys2Proof.Machine

/-! ### Flag bytes, bit by bit (10_state.md R23) -/

theorem bit_writeFlags (p mask new : Byte) {k : Nat} (hk : k < 8) :
    bit (writeFlags p mask new) k = ((bit p k && !bit mask k) || bit new k) := by
  simp [bit, writeFlags, hk]

theorem bit_zBit (v : Byte) : ∀ k < 8, bit (zBit v) k = (decide (k = 1) && decide (v = 0#8)) := by
  by_cases zero : v = 0#8
  · rw [zBit, if_pos zero, decide_eq_true zero]; decide
  · rw [zBit, if_neg zero, decide_eq_false zero]; decide

theorem bit_nzBits (v : Byte) {k : Nat} (hk : k < 8) :
    bit (nzBits v) k = ((bit v k && decide (k = 7)) || (decide (k = 1) && decide (v = 0#8))) := by
  have sign : ∀ k < 8, bit 0x80#8 k = decide (k = 7) := by decide
  rw [← sign k hk, ← bit_zBit v k hk]
  simp [bit, nzBits]

/-- `SetZN(v)` writes the two bits N and Z of P and no other (00_scope.md R7). -/
theorem setZN_eq (s : State) (v : Byte) : s.setZN v = s.setP (writeFlags s.cpu.p 0x82#8 (nzBits v)) := by
  have mask : ∀ k < 8, bit 0x82#8 k = (decide (k = 7) || decide (k = 1)) := by decide
  have byte : withBit (withBit s.cpu.p 1 (decide (v = 0#8))) 7 (bit v 7) = writeFlags s.cpu.p 0x82#8 (nzBits v) := by
    refine bit_ext fun k hk => ?_
    rw [bit_withBit _ _ _ _ (by decide), bit_withBit _ _ _ _ (by decide), bit_writeFlags _ _ _ hk, bit_nzBits v hk,
      mask k hk]
    by_cases n : k = 7
    · simp [n]
    · by_cases z : k = 1 <;> simp [n, z]
  exact congrArg s.setP byte

/-! ### The next state of an access class (40_addressing_modes.md R145, R146) -/

section
variable {use : Byte → State → State} {c : Byte → Cpu} {s : State}

/-- A read-class instruction that leaves the registers `c v` for the operand's value `v`: the read changes no register. -/
theorem readMemClass_eq_afterRead (h : ∀ v t, t.cpu = s.cpu → use v t = t.withCpu (c v)) (m : Mem) :
    readMemClass (readBase m) m use s = afterRead (.mem m) s c := by
  rw [readMemClass_eq, resolve_ea, resolve_extra, h _ _ (busRead_cpu _ s)]
  rfl

theorem readClass_eq_afterRead (h : ∀ v t, t.cpu = s.cpu → use v t = t.withCpu (c v)) (src : Src) :
    readClass (srcBase src) src use s = afterRead src s c := by
  cases src with
  | imm v => rw [readClass_imm, h v s rfl]; rfl
  | mem m => exact readMemClass_eq_afterRead h m

end

theorem writeClass_eq_afterStore (m : Mem) (v : Byte) (s : State) :
    writeClass (writeBase m) m v s = afterStore m s v := by
  rw [writeClass_eq, resolve_ea, resolve_extra, afterStore]

theorem impliedClass_eq_afterRegs {f : State → State} {s : State} {c : Cpu} (h : f s = s.withCpu c) (n : Nat) :
    impliedClass n f s = afterRegs n s c := by
  rw [impliedClass, h, afterRegs]

/-! ### Loads, stores and transfers -/

/-- Settles O9: each load is a register written and `SetZN` of the value read, on the registers as they were. -/
theorem loadsWriteRegisterAndZN : Obligations.LoadsWriteRegisterAndZN := by
  intro s
  refine ⟨fun src => ?lda, fun src => ?ldx, fun src => ?ldy, fun m => ?lax⟩
  case lda | ldx | ldy =>
    refine congrArg Host.Outcome.next (readClass_eq_afterRead (fun m t regs => ?_) src)
    rw [setZN_eq, ← regs]
    rfl
  case lax =>
    refine congrArg Host.Outcome.next (readMemClass_eq_afterRead (fun v t regs => ?_) m)
    rw [setZN_eq, ← regs]
    rfl

/-- Settles O10: the four are the write class, each with its own byte. -/
theorem storesWriteOnce : Obligations.StoresWriteOnce := by
  intro m s
  refine ⟨?sta, ?stx, ?sty, ?sax⟩
  all_goals exact congrArg Host.Outcome.next (writeClass_eq_afterStore m _ s)

/-- Settles O11: five write a register and `SetZN` of it, TXS writes SP alone. -/
theorem transfersMoveOneRegister : Obligations.TransfersMoveOneRegister := by
  intro s
  refine ⟨?tax, ?tay, ?txa, ?tya, ?tsx, ?txs⟩
  case txs => exact congrArg Host.Outcome.next (impliedClass_eq_afterRegs rfl 2)
  all_goals exact congrArg Host.Outcome.next (impliedClass_eq_afterRegs (setZN_eq _ _) 2)

end Sys2Proof.Machine
end

section
/-! SUPPORT. The statements about 42_arithmetic_logic.md: the sums and differences (O12, O13) and what their V and C mean
(O14), the decimal flag (O15), and the logical operations, comparisons, increments and decrements (O16 to O20). Flags written
one after another are one update of P. -/

namespace Sys2Proof.Machine

/-! ### Flags written one after another (10_state.md R23) -/

theorem bit_or (a b : Byte) (k : Nat) : bit (a ||| b) k = (bit a k || bit b k) := BitVec.getLsbD_or

/-- A bit written is the flag byte with that bit alone in its mask. -/
theorem withBit_eq_writeFlags (p : Byte) (k : Nat) (b : Bool) :
    withBit p k b = writeFlags p (1#8 <<< k) (if b then 1#8 <<< k else 0x00#8) := by
  cases b with
  | false => simp [withBit, writeFlags]
  | true =>
    ext i hi
    simp only [withBit, writeFlags, if_true, BitVec.getElem_or, BitVec.getElem_and, BitVec.getElem_not]
    cases p[i] <;> cases (1#8 <<< k)[i] <;> rfl

theorem setFlag_c_eq (s : State) (b : Bool) : s.setFlag .c b = s.setP (writeFlags s.cpu.p 0x01#8 (cBit b)) :=
  congrArg s.setP (withBit_eq_writeFlags _ 0 b)

theorem setFlag_v_eq (s : State) (b : Bool) : s.setFlag .v b = s.setP (writeFlags s.cpu.p 0x40#8 (vBit b)) :=
  congrArg s.setP (withBit_eq_writeFlags _ 6 b)

/-- Two flag bytes written are one, where the second mask leaves the first byte alone. -/
theorem writeFlags_writeFlags (p mask : Byte) {new mask' : Byte} (apart : new &&& mask' = 0#8) (new' : Byte) :
    writeFlags (writeFlags p mask new) mask' new' = writeFlags p (mask ||| mask') (new' ||| new) := by
  refine bit_ext fun k hk => ?_
  have here : (bit new k && bit mask' k) = false := by simpa [bit] using congrArg (bit · k) apart
  rw [bit_writeFlags _ _ _ hk, bit_writeFlags _ _ _ hk, bit_writeFlags _ _ _ hk, bit_or, bit_or]
  revert here
  cases bit new k <;> cases bit mask' k <;> cases bit new' k <;> simp

/-- C, V and `SetZN(r)` written one after another are one write of the four. -/
theorem writeFlags_c_v_nz (p : Byte) (c v : Bool) (r : Byte) :
    writeFlags (writeFlags (writeFlags p 0x01#8 (cBit c)) 0x40#8 (vBit v)) 0x82#8 (nzBits r) =
      writeFlags p 0xC3#8 (nzBits r ||| vBit v ||| cBit c) := by
  have c_apart : cBit c &&& 0x40#8 = 0#8 := by cases c <;> rfl
  have vc_apart : (vBit v ||| cBit c) &&& 0x82#8 = 0#8 := by cases v <;> cases c <;> rfl
  rw [writeFlags_writeFlags _ _ c_apart, writeFlags_writeFlags _ _ vc_apart, BitVec.or_assoc (nzBits r)]
  rfl

/-! ### The shared operations as one change of the registers (R170, R171, R175, R176) -/

theorem carry_eq_carryOf (s : State) : s.carry = carryOf s.cpu.p := by
  calc s.carry = s.cpu.p.toNat / 2 ^ 0 % 2 := Nat.toNat_testBit s.cpu.p.toNat 0
    _ = carryOf s.cpu.p := by rw [pow_zero, Nat.div_one, carryOf]

/-- The sign rule of R170 as the machine computes it. -/
theorem signRule_eq_decide : ∀ a m r : Bool, ((a == m) && (r != a)) = decide (a = m ∧ r ≠ a) := by decide

/-- `AddWithCarry(m)` is A and the four flags N, V, Z and C. -/
theorem addWithCarry_eq (m : Byte) (s : State) : addWithCarry m s = s.withCpu (afterAdd s.cpu m) := by
  simp only [addWithCarry, afterAdd, carry_eq_carryOf, signRule_eq_decide, setFlag_c_eq, setFlag_v_eq, setZN_eq,
    State.setP_p, State.setA_p, writeFlags_c_v_nz]
  rfl

/-- The registers after a sum with the complement are those after the difference (R171): A + (255 - M) + C is
256 + (A - M - (1 - C)). -/
theorem afterAdd_complement (c : Cpu) (m : Byte) : afterAdd c (m ^^^ 0xFF#8) = afterSub c m := by
  have complement : m ^^^ 0xFF#8 = ~~~m := BitVec.xor_allOnes
  have sum_eq : ((c.a.toNat + (~~~m).toNat + carryOf c.p : Nat) : Int) =
      (c.a.toNat : Int) - m.toNat - (1 - carryOf c.p) + 256 := by
    have := m.isLt
    rw [BitVec.toNat_not]; omega
  have result : BitVec.ofNat 8 (c.a.toNat + (~~~m).toNat + carryOf c.p) =
      BitVec.ofInt 8 ((c.a.toNat : Int) - m.toNat - (1 - carryOf c.p)) := by
    rw [← BitVec.ofInt_natCast, sum_eq, BitVec.ofInt_add]
    exact BitVec.add_zero _
  have borrow : (0xFF < c.a.toNat + (~~~m).toNat + carryOf c.p) ↔
      0 ≤ (c.a.toNat : Int) - m.toNat - (1 - carryOf c.p) := by omega
  have sign : (bit c.a 7 = bit (~~~m) 7) ↔ bit c.a 7 ≠ bit m 7 := by
    rw [show bit (~~~m) 7 = !bit m 7 by simp [bit]]
    cases bit c.a 7 <;> cases bit m 7 <;> decide
  simp only [complement, afterAdd, afterSub, result, borrow, sign]

theorem subWithBorrow_eq (m : Byte) (s : State) : subWithBorrow m s = s.withCpu (afterSub s.cpu m) :=
  (addWithCarry_eq _ s).trans (congrArg s.withCpu (afterAdd_complement s.cpu m))

theorem compareBytes_eq (r m : Byte) (s : State) : compareBytes r m s = s.setP (afterCompare s.cpu.p r m) := by
  have apart (c : Bool) : cBit c &&& 0x82#8 = 0#8 := by cases c <;> rfl
  rw [compareBytes, setZN_eq, setFlag_c_eq, State.setP_p, writeFlags_writeFlags _ _ (apart _)]
  rfl

/-- The flags of BIT are bits 7 and 6 of the operand in their own places, and Z. -/
theorem bitTest_eq (m : Byte) (s : State) :
    bitTest m s = s.setP (writeFlags s.cpu.p 0xC2#8 ((m &&& 0xC0#8) ||| zBit (s.cpu.a &&& m))) := by
  have mask : ∀ k < 8, bit 0xC2#8 k = (decide (k = 6) || decide (k = 7) || decide (k = 1)) := by decide
  have kept : ∀ k < 8, bit 0xC0#8 k = (decide (k = 6) || decide (k = 7)) := by decide
  have new {k : Nat} (hk : k < 8) (z : Byte) : bit ((m &&& 0xC0#8) ||| zBit z) k =
      ((bit m k && (decide (k = 6) || decide (k = 7))) || (decide (k = 1) && decide (z = 0#8))) := by
    rw [← kept k hk, ← bit_zBit z k hk, bit_or]
    exact congrArg (· || bit (zBit z) k) BitVec.getLsbD_and
  refine congrArg s.setP (bit_ext fun k hk => ?_)
  rw [bit_writeFlags _ _ _ hk, mask k hk, new hk]
  simp only [State.setFlag, State.setP_p, bit_withBit _ _ _ _ (flagBit_lt _)]
  simp only [flagBit]
  by_cases v : k = 6
  · simp [v]
  · by_cases n : k = 7
    · simp [n]
    · by_cases z : k = 1 <;> simp [v, n, z]

/-! ### Sums and differences -/

/-- Settles O12: the read class on `AddWithCarry`. -/
theorem adcAddsWithCarry : Obligations.AdcAddsWithCarry := by
  intro src s
  refine congrArg Host.Outcome.next (readClass_eq_afterRead (fun m t regs => ?_) src)
  rw [addWithCarry_eq, regs]

/-- Settles O13: the read class on the sum with the complement; 0xEB is the immediate form. -/
theorem sbcSubtractsWithBorrow : Obligations.SbcSubtractsWithBorrow := by
  intro s
  have sbc (src : Src) : readClass (srcBase src) src subWithBorrow s = afterRead src s (afterSub s.cpu) :=
    readClass_eq_afterRead (fun m t regs => by rw [subWithBorrow_eq, regs]) src
  exact ⟨fun src => congrArg Host.Outcome.next (sbc src), fun v => congrArg Host.Outcome.next (sbc (.imm v))⟩

/-! ### What V and C mean (R185) -/

/-- The C and V that a sum leaves are the ones written with it: nothing else in its flag byte reaches their bits. -/
theorem bit_writeFlags_c_v_nz (p r : Byte) (v c : Bool) :
    bit (writeFlags p 0xC3#8 (nzBits r ||| vBit v ||| cBit c)) 0 = c ∧
      bit (writeFlags p 0xC3#8 (nzBits r ||| vBit v ||| cBit c)) 6 = v := by
  refine ⟨?_, ?_⟩
  all_goals
    rw [bit_writeFlags _ _ _ (by decide), bit_or, bit_or, bit_nzBits _ (by decide)]
    cases v <;> cases c <;> simp [vBit, cBit, bit]

theorem carryOf_le (p : Byte) : carryOf p ≤ 1 := by unfold carryOf; omega

theorem bit_seven (b : Byte) : bit b 7 = decide (128 ≤ b.toNat) := BitVec.msb_eq_decide b

/-- The sign rule of R170 is that the exact signed sum is no signed byte. -/
theorem signRule_iff_overflow (a m : Byte) {c : Nat} (hc : c ≤ 1) :
    (bit a 7 = bit m 7 ∧ bit (BitVec.ofNat 8 (a.toNat + m.toNat + c)) 7 ≠ bit a 7) ↔
      a.toInt + m.toInt + c < -128 ∨ 127 < a.toInt + m.toInt + c := by
  have ha := a.isLt
  have hm := m.isLt
  simp only [bit_seven, BitVec.toNat_ofNat, BitVec.toInt_eq_toNat_cond, ne_eq, decide_eq_decide]
  split <;> split <;> omega

/-- After a sum, V is signed overflow and C unsigned overflow. -/
theorem afterAdd_overflow (c : Cpu) (m : Byte) :
    (bit (afterAdd c m).p 6 = true ↔
      c.a.toInt + m.toInt + carryOf c.p < -128 ∨ 127 < c.a.toInt + m.toInt + carryOf c.p) ∧
    (bit (afterAdd c m).p 0 = true ↔ 255 < (c.a.toNat : Int) + m.toNat + carryOf c.p) := by
  simp only [afterAdd, bit_writeFlags_c_v_nz, decide_eq_true_iff]
  exact ⟨signRule_iff_overflow c.a m (carryOf_le c.p), by omega⟩

/-- After a difference, V is signed overflow and C no borrow: it is the sum with the complement, -1 - M as a signed number
and 255 - M as an unsigned one. -/
theorem afterSub_overflow (c : Cpu) (m : Byte) :
    (bit (afterSub c m).p 6 = true ↔
      c.a.toInt - m.toInt - (1 - carryOf c.p) < -128 ∨ 127 < c.a.toInt - m.toInt - (1 - carryOf c.p)) ∧
    (bit (afterSub c m).p 0 = true ↔ 0 ≤ (c.a.toNat : Int) - m.toNat - (1 - carryOf c.p)) := by
  have complement : m ^^^ 0xFF#8 = ~~~m := BitVec.xor_allOnes
  have hm := m.isLt
  have signed : (~~~m).toInt = -m.toInt - 1 := by
    rw [BitVec.toInt_eq_toNat_cond, BitVec.toInt_eq_toNat_cond, BitVec.toNat_not]; split <;> split <;> omega
  have unsigned : ((~~~m).toNat : Int) = 255 - m.toNat := by rw [BitVec.toNat_not]; omega
  obtain ⟨v_iff, c_iff⟩ := afterAdd_overflow c (~~~m)
  rw [← afterAdd_complement, complement, v_iff, c_iff, signed, unsigned]
  constructor <;> omega

/-- Settles O14: the flags of the next state are those of the registers that O12 and O13 give. -/
theorem overflowIsSignedOverflow : Obligations.OverflowIsSignedOverflow := by
  intro src s m c
  refine ⟨fun t h => ?adc, fun t h => ?sbc⟩
  case adc =>
    obtain rfl := Host.Outcome.next.inj ((adcAddsWithCarry src s).symm.trans h)
    exact afterAdd_overflow s.cpu m
  case sbc =>
    obtain rfl := Host.Outcome.next.inj (((sbcSubtractsWithBorrow s).1 src).symm.trans h)
    exact afterSub_overflow s.cpu m

/-! ### The decimal flag (R186) -/

/-- Two flags are written in either order. -/
theorem setFlag_comm {f g : Flag} (h : f ≠ g) (v w : Bool) (s : State) :
    (s.setFlag f v).setFlag g w = (s.setFlag g w).setFlag f v := by
  have apart : flagBit f ≠ flagBit g := fun e => h (flagBit_injective e)
  refine congrArg s.setP (bit_ext fun k _ => ?_)
  simp only [State.setFlag, State.setP_p, bit_withBit _ _ _ _ (flagBit_lt _)]
  by_cases hf : k = flagBit f
  · simp [hf, apart]
  · simp [hf]

/-- `AddWithCarry` neither looks at D nor writes it. -/
theorem addWithCarry_setFlag_d (m : Byte) (d : Bool) (s : State) :
    addWithCarry m (s.setFlag .d d) = (addWithCarry m s).setFlag .d d := by
  have carry : (s.setFlag .d d).carry = s.carry := by
    unfold State.carry; rw [flag_setFlag, if_neg (by decide)]
  have setA_comm (t : State) (r : Byte) : (t.setFlag .d d).setA r = (t.setA r).setFlag .d d := rfl
  simp only [addWithCarry, carry, State.setFlag_a, State.setZN, setA_comm,
    setFlag_comm (show Flag.d ≠ .c by decide), setFlag_comm (show Flag.d ≠ .v by decide),
    setFlag_comm (show Flag.d ≠ .z by decide), setFlag_comm (show Flag.d ≠ .n by decide)]

/-- No device looks at the CPU registers on a write either. -/
theorem busWrite_withCpu (a : Addr) (v : Byte) (s : State) (c : Cpu) :
    busWrite a v (s.withCpu c) = (busWrite a v s).withCpu c := by
  unfold busWrite
  cases route a with
  | port p => cases p <;> rfl
  | _ => rfl

section
variable (f : Flag) (v : Bool) (s : State)

theorem setFlag_eq_withCpu : s.setFlag f v = s.withCpu { s.cpu with p := withBit s.cpu.p (flagBit f) v } := rfl

theorem busRead_setFlag (a : Addr) :
    busRead a (s.setFlag f v) = ((busRead a s).1, (busRead a s).2.setFlag f v) := by
  rw [setFlag_eq_withCpu, busRead_withCpu, setFlag_eq_withCpu, busRead_cpu]

theorem busWrite_setFlag (a : Addr) (b : Byte) : busWrite a b (s.setFlag f v) = (busWrite a b s).setFlag f v := by
  rw [setFlag_eq_withCpu, busWrite_withCpu, setFlag_eq_withCpu, busWrite_cpu]

/-- No operand form looks at a flag. -/
theorem resolve_ea_setFlag (m : Mem) : (resolve m (s.setFlag f v)).ea = (resolve m s).ea := by
  rw [resolve_ea, resolve_ea]; cases m <;> rfl

theorem resolve_extra_setFlag (m : Mem) : (resolve m (s.setFlag f v)).extra = (resolve m s).extra := by
  rw [resolve_extra, resolve_extra]; cases m <;> rfl

/-- A read-class instruction leaves the flag to the use of its operand. -/
theorem readClass_setFlag {use : Byte → State → State} (h : ∀ m t, use m (t.setFlag f v) = (use m t).setFlag f v)
    (base : Nat) (src : Src) :
    readClass base src use (s.setFlag f v) = (readClass base src use s).setFlag f v := by
  cases src with
  | imm m => rw [readClass_imm, readClass_imm, h]; rfl
  | mem m =>
    rw [readClass_mem, readClass_mem, readMemClass_eq, readMemClass_eq, resolve_ea_setFlag, resolve_extra_setFlag,
      busRead_setFlag, h]
    rfl

/-- Before it writes its registers and flags, a read-modify-write instruction looks at no flag but C. -/
theorem rmwClass_setFlag (hf : f ≠ .c) {new : Bool → Byte → Byte} {after : Byte → Byte → State → State}
    (h : ∀ m r t, after m r (t.setFlag f v) = (after m r t).setFlag f v) (base : Nat) (m : Mem) :
    rmwClass base m new after (s.setFlag f v) = (rmwClass base m new after s).setFlag f v := by
  rw [rmwClass_eq, rmwClass_eq, resolve_ea_setFlag, resolve_extra_setFlag, busRead_setFlag, flag_setFlag,
    if_neg hf.symm, busWrite_setFlag, h]
  rfl

end

/-- Settles O15: the five are a read or a read-modify-write whose arithmetic is `AddWithCarry`, RRA after its rotate's C. -/
theorem decimalFlagHasNoEffect : Obligations.DecimalFlagHasNoEffect := by
  intro i d s t instr h
  have sub (m : Byte) (u : State) : subWithBorrow m (u.setFlag .d d) = (subWithBorrow m u).setFlag .d d :=
    addWithCarry_setFlag_d _ d u
  rcases instr with ⟨src, rfl | rfl⟩ | ⟨v, rfl⟩ | ⟨m, rfl | rfl⟩
  all_goals
    obtain rfl := Host.Outcome.next.inj h
    refine congrArg Host.Outcome.next ?_
  · exact readClass_setFlag .d d s (fun m u => addWithCarry_setFlag_d m d u) _ src
  · exact readClass_setFlag .d d s sub _ src
  · exact readClass_setFlag .d d s sub _ (.imm v)
  · exact rmwClass_setFlag .d d s (by decide) (fun _ r u => sub r u) _ m
  · refine rmwClass_setFlag .d d s (by decide) (fun m r u => ?_) _ m
    rw [setFlag_comm (by decide), addWithCarry_setFlag_d]

/-! ### Logical operations, BIT and comparisons -/

/-- Settles O16: each is A written and `SetZN` of it, on the registers as they were. -/
theorem logicalOperations : Obligations.LogicalOperations := by
  intro src s
  refine ⟨?and, ?ora, ?eor⟩
  all_goals
    refine congrArg Host.Outcome.next (readClass_eq_afterRead (fun m t regs => ?_) src)
    rw [setZN_eq, ← regs]
    rfl

/-- Settles O17: the read class on the flags of BIT. -/
theorem bitTestsTheOperand : Obligations.BitTestsTheOperand := by
  intro mem s
  refine congrArg Host.Outcome.next (readMemClass_eq_afterRead (fun m t regs => ?_) mem)
  rw [bitTest_eq, ← regs]
  rfl

/-- Settles O18: the three are `Compare`, each with its own register. -/
theorem comparesSetCarryAndZN : Obligations.ComparesSetCarryAndZN := by
  intro src s
  refine ⟨?cmp, ?cpx, ?cpy⟩
  all_goals
    refine congrArg Host.Outcome.next (readClass_eq_afterRead (fun m t regs => ?_) src)
    rw [compareBytes_eq, ← regs]
    rfl

/-! ### Increments and decrements -/

/-- A read-modify-write instruction that leaves the registers `c m` for the byte `m` it read. -/
theorem rmwClass_eq_afterRmw {new : Bool → Byte → Byte} {after : Byte → Byte → State → State} {s : State}
    {c : Byte → Cpu} (h : ∀ m t, t.cpu = s.cpu → after m (new (s.flag .c) m) t = t.withCpu (c m)) (mem : Mem) :
    rmwClass (rmwBase mem) mem new after s = afterRmw mem s (new (s.flag .c)) c := by
  rw [rmwClass_eq, resolve_ea, resolve_extra, h _ _ ((busWrite_cpu _ _ _).trans (busRead_cpu _ s))]
  rfl

/-- Settles O19: the read-modify-write class with `SetZN` of the byte stored. -/
theorem memoryIncrements : Obligations.MemoryIncrements := by
  intro mem s
  refine ⟨?inc, ?dec⟩
  all_goals
    refine congrArg Host.Outcome.next (rmwClass_eq_afterRmw (fun m t regs => ?_) mem)
    rw [setZN_eq, ← regs]
    rfl

/-- Settles O20: each is a register written and `SetZN` of it. -/
theorem registerIncrements : Obligations.RegisterIncrements := by
  intro s
  refine ⟨?inx, ?iny, ?dex, ?dey⟩
  all_goals exact congrArg Host.Outcome.next (impliedClass_eq_afterRegs (setZN_eq _ _) 2)

end Sys2Proof.Machine
end

section
/-! SUPPORT. The statements about 43_shift_rotate.md (O21, O22): the shifted byte as a number, the flags it leaves as
one update of P, and the next state of a shift for both kinds of destination at once. -/

namespace Sys2Proof.Machine

/-! ### The shifted byte as a number (R200 to R203) -/

theorem bit_ofNat (n : Nat) {k : Nat} (hk : k < 8) : bit (BitVec.ofNat 8 n) k = n.testBit k := by
  rw [bit, BitVec.getLsbD_ofNat, decide_eq_true hk, Bool.true_and]

theorem aslByte_eq_ofNat (m : Byte) : aslByte m = BitVec.ofNat 8 (2 * m.toNat) :=
  BitVec.eq_of_toNat_eq (by simp [aslByte, Nat.shiftLeft_eq, Nat.mul_comm])

theorem lsrByte_eq_ofNat (m : Byte) : lsrByte m = BitVec.ofNat 8 (m.toNat / 2) := by
  have hm := m.isLt
  refine BitVec.eq_of_toNat_eq ?_
  simp only [lsrByte, BitVec.toNat_ushiftRight, BitVec.toNat_ofNat, Nat.shiftRight_eq_div_pow]
  omega

/-- The carry enters below the doubled byte: bit 0 is the carry, bit `k + 1` is bit `k` of `m`. -/
theorem rolByte_eq_ofNat (c : Bool) (m : Byte) : rolByte c m = BitVec.ofNat 8 (2 * m.toNat + c.toNat) := by
  refine bit_ext fun k hk => ?_
  rw [← Nat.bit_val, bit_ofNat _ hk, rolByte, bit_withBit _ _ _ _ (by decide)]
  cases k with
  | zero => rw [if_pos rfl, Nat.testBit_bit_zero]
  | succ k =>
    rw [if_neg k.succ_ne_zero, Nat.testBit_bit_succ, bit, BitVec.getLsbD_shiftLeft, decide_eq_true hk]
    rfl

/-- The carry enters above the halved byte, which is below 128. -/
theorem rorByte_eq_ofNat (c : Bool) (m : Byte) : rorByte c m = BitVec.ofNat 8 (m.toNat / 2 + 128 * c.toNat) := by
  have half : m.toNat / 2 < 2 ^ 7 := by have := m.isLt; omega
  refine bit_ext fun k hk => ?_
  rw [Nat.add_comm, bit_ofNat _ hk, show 128 = 2 ^ 7 by rfl, Nat.testBit_two_pow_mul_add _ half, rorByte,
    bit_withBit _ _ _ _ (by decide)]
  by_cases top : k = 7
  · subst top; cases c <;> rfl
  · have low : k < 7 := by omega
    rw [if_neg top, if_pos low, Nat.testBit_div_two]
    simp [bit, BitVec.getLsbD, Nat.add_comm]

theorem bit_zero (b : Byte) : bit b 0 = decide (b.toNat % 2 = 1) := Nat.testBit_zero _

theorem toNat_flag_c (s : State) : (s.flag .c).toNat = carryOf s.cpu.p := carry_eq_carryOf s

/-! ### The flags of a shift -/

/-- C and `SetZN(r)` written one after another are one write of the three. -/
theorem setFlag_c_setZN_eq (s : State) (b : Bool) (r : Byte) :
    (s.setFlag .c b).setZN r = s.setP (writeFlags s.cpu.p 0x83#8 (nzBits r ||| cBit b)) := by
  have apart : cBit b &&& 0x82#8 = 0#8 := by cases b <;> rfl
  rw [setZN_eq, setFlag_c_eq, State.setP_p, writeFlags_writeFlags _ _ apart]
  rfl

/-- Halving clears the sign. -/
theorem bit_seven_half (m : Byte) : bit (BitVec.ofNat 8 (m.toNat / 2)) 7 = false := by
  have hm := m.isLt
  rw [bit_seven, BitVec.toNat_ofNat]
  exact decide_eq_false (by omega)

theorem nzBits_eq_zBit {v : Byte} (positive : bit v 7 = false) : nzBits v = zBit v := by
  refine bit_ext fun k hk => ?_
  rw [bit_nzBits v hk, bit_zBit v k hk]
  by_cases top : k = 7
  · simp [top, positive]
  · simp [top]

/-- Z of `v` and N clear are `SetZN(v)` where `v` has no sign. -/
theorem setZN_of_positive {v : Byte} (positive : bit v 7 = false) (s : State) :
    s.setZN v = (s.setFlag .z (decide (v = 0#8))).setFlag .n false := by
  rw [State.setZN, positive]

/-! ### The next state of a shift (40_addressing_modes.md R146) -/

/-- After a shift or rotate that makes `new m` of the byte `m` at its destination and leaves `flags m` in N, Z and C. -/
def afterShift (dst : Dst) (s : State) (new flags : Byte → Byte) : State :=
  match dst with
  | .acc => afterRegs 2 s { s.cpu with a := new s.cpu.a, p := writeFlags s.cpu.p 0x83#8 (flags s.cpu.a) }
  | .mem mem => afterRmw mem s new fun m => { s.cpu with p := writeFlags s.cpu.p 0x83#8 (flags m) }

/-- The shift class, from the byte it stores and the flags it writes. -/
theorem shiftClass_eq_afterShift {new : Bool → Byte → Byte} {after : Byte → Byte → State → State} {s : State}
    {r flags : Byte → Byte} (stored : ∀ m, new (s.flag .c) m = r m)
    (written : ∀ m t, after m (r m) t = t.setP (writeFlags t.cpu.p 0x83#8 (flags m))) (dst : Dst) :
    shiftClass dst new after s = afterShift dst s r flags := by
  obtain rfl : new (s.flag .c) = r := funext stored
  cases dst with
  | acc =>
    rw [shiftClass, written]
    rfl
  | mem mem =>
    rw [shiftClass, afterShift]
    refine rmwClass_eq_afterRmw (fun m t regs => ?_) mem
    rw [written, ← regs]
    rfl

theorem exec_asl_eq (dst : Dst) (s : State) :
    exec (.asl dst) s = .next (afterShift dst s (fun m => BitVec.ofNat 8 (2 * m.toNat)) fun m =>
      nzBits (BitVec.ofNat 8 (2 * m.toNat)) ||| cBit (decide (0x80 ≤ m.toNat))) := by
  refine congrArg Host.Outcome.next (shiftClass_eq_afterShift aslByte_eq_ofNat (fun m t => ?_) dst)
  rw [setFlag_c_setZN_eq, bit_seven]

theorem exec_lsr_eq (dst : Dst) (s : State) :
    exec (.lsr dst) s = .next (afterShift dst s (fun m => BitVec.ofNat 8 (m.toNat / 2)) fun m =>
      zBit (BitVec.ofNat 8 (m.toNat / 2)) ||| cBit (decide (m.toNat % 2 = 1))) := by
  refine congrArg Host.Outcome.next (shiftClass_eq_afterShift lsrByte_eq_ofNat (fun m t => ?_) dst)
  rw [← setZN_of_positive (bit_seven_half m), setFlag_c_setZN_eq, nzBits_eq_zBit (bit_seven_half m), bit_zero]

theorem exec_rol_eq (dst : Dst) (s : State) :
    exec (.rol dst) s = .next (afterShift dst s (fun m => BitVec.ofNat 8 (2 * m.toNat + carryOf s.cpu.p)) fun m =>
      nzBits (BitVec.ofNat 8 (2 * m.toNat + carryOf s.cpu.p)) ||| cBit (decide (0x80 ≤ m.toNat))) := by
  rw [← toNat_flag_c]
  refine congrArg Host.Outcome.next (shiftClass_eq_afterShift (rolByte_eq_ofNat _) (fun m t => ?_) dst)
  rw [setFlag_c_setZN_eq, bit_seven]

theorem exec_ror_eq (dst : Dst) (s : State) :
    exec (.ror dst) s = .next (afterShift dst s (fun m => BitVec.ofNat 8 (m.toNat / 2 + 128 * carryOf s.cpu.p)) fun m =>
      nzBits (BitVec.ofNat 8 (m.toNat / 2 + 128 * carryOf s.cpu.p)) ||| cBit (decide (m.toNat % 2 = 1))) := by
  rw [← toNat_flag_c]
  refine congrArg Host.Outcome.next (shiftClass_eq_afterShift (rorByte_eq_ofNat _) (fun m t => ?_) dst)
  rw [setFlag_c_setZN_eq, bit_zero]

/-! ### Shifts and rotates -/

/-- Settles O21: the accumulator is one destination of each of the four. -/
theorem accumulatorShifts : Obligations.AccumulatorShifts := fun s =>
  ⟨exec_asl_eq .acc s, exec_lsr_eq .acc s, exec_rol_eq .acc s, exec_ror_eq .acc s⟩

/-- Settles O22: memory is the other destination, with the same bytes and flags. -/
theorem memoryShifts : Obligations.MemoryShifts := fun mem s =>
  ⟨exec_asl_eq (.mem mem) s, exec_lsr_eq (.mem mem) s, exec_rol_eq (.mem mem) s, exec_ror_eq (.mem mem) s⟩

end Sys2Proof.Machine
end

section
/-! SUPPORT. The statements about 44_stack_flags.md: pushes and pulls (O23, O24) by the stack rules, the flag instructions
(O25) as one masked byte each, and the no-operations (O26) by what their operand costs. -/

namespace Sys2Proof.Machine

/-! ### The next state of a push (20_memory.md R77) -/

/-- An instruction that pushes one byte leaves it in RAM, SP one less, and no other register changed. -/
theorem impliedClass_push (n : Nat) (b : State → Byte) (s : State) :
    impliedClass n (fun t => push (b t) t) s =
      afterStack n s (s.ram.write (stackIndex s.cpu.sp) (b s)) { s.cpu with sp := s.cpu.sp - 1#8 } := by
  rw [impliedClass, push_eq, afterStack]
  rfl

/-! ### The registers after a pull (R212, R213) -/

theorem pullA_eq (s : State) :
    let sp := s.cpu.sp + 1#8
    let b := s.ram.read (stackIndex sp)
    pullA s = s.withCpu { s.cpu with sp := sp, a := b, p := writeFlags s.cpu.p 0x82#8 (nzBits b) } := by
  rw [pullA, pull_eq, setZN_eq]
  rfl

theorem pullP_eq (s : State) :
    let sp := s.cpu.sp + 1#8
    pullP s = s.withCpu { s.cpu with sp := sp, p := loadedStatus (s.ram.read (stackIndex sp)) } := by
  rw [pullP, pull_eq]
  rfl

/-! ### One flag written (R214 to R220) -/

theorem impliedClass_setFlag (n : Nat) (f : Flag) (v : Bool) (s : State) :
    impliedClass n (fun t => t.setFlag f v) s = afterRegs n s { s.cpu with p := withBit s.cpu.p (flagBit f) v } :=
  impliedClass_eq_afterRegs (setFlag_eq_withCpu f v s) n

/-! ### The no-operations (R221, 46_unofficial.md R268) -/

/-- Resolving the operand of an unofficial no-operation has no effect. -/
@[simp] theorem nopResolve_eq (arg : NopArg) (s : State) : nopResolve arg s = s := by
  cases arg with
  | imp => rfl
  | imm v => rfl
  | mem m => exact resolve_post m s

/-- An unofficial no-operation is its cost alone, whatever its opcode and operand. -/
theorem exec_nopUnofficial_eq (op : Byte) (arg : NopArg) (s : State) :
    exec (.nopUnofficial op arg) s = .next (s.charge (nopCost arg s)) :=
  congrArg (fun t : State => Host.Outcome.next (t.charge (nopCost arg s))) (nopResolve_eq arg s)

theorem nopCost_mem (m : Mem) (s : State) : nopCost (.mem m) s = readBase m + effExtra m s :=
  congrArg (readBase m + ·) (resolve_extra m s)

/-! ### Stack, flag and no-operation instructions -/

/-- Settles O24: a pull leaves registers only, A with its `SetZN` or P as `loadedStatus` makes it. -/
theorem pullsLoadOneByte : Obligations.PullsLoadOneByte := fun s =>
  ⟨congrArg Host.Outcome.next (impliedClass_eq_afterRegs (pullA_eq s) 4),
    congrArg Host.Outcome.next (impliedClass_eq_afterRegs (pullP_eq s) 4)⟩

/-- Settles O23: the two push one byte, A or P as `pushedStatus` makes it. -/
theorem pushesStoreOneByte : Obligations.PushesStoreOneByte := fun s =>
  ⟨congrArg Host.Outcome.next (impliedClass_push 3 (fun t => t.cpu.a) s),
    congrArg Host.Outcome.next (impliedClass_push 3 (fun t => pushedStatus t.cpu.p) s)⟩

/-- Settles O25: each writes its own flag, whose mask is a byte with one bit clear or one bit set. -/
theorem flagInstructionsWriteOneFlag : Obligations.FlagInstructionsWriteOneFlag := by
  intro s
  refine ⟨?clc, ?sec, ?cli, ?sei, ?cld, ?sed, ?clv⟩
  all_goals exact congrArg Host.Outcome.next (impliedClass_setFlag 2 _ _ s)

/-- Settles O26: NOP is a charge by definition, each unofficial no-operation by what its operand costs. -/
theorem noOperationsDoNothing : Obligations.NoOperationsDoNothing := by
  intro op s
  refine ⟨?nop, ?implied, fun v => ?immediate, fun m => ?memory⟩
  case nop => rfl
  case implied => exact exec_nopUnofficial_eq op .imp s
  case immediate => exact exec_nopUnofficial_eq op (.imm v) s
  case memory => rw [exec_nopUnofficial_eq, nopCost_mem]

end Sys2Proof.Machine
end

section
/-! SUPPORT. The statements about 45_control_transfer.md: jumps (O27), calls and returns (O28), branches (O29), BRK and RTI
(O30), and returns that undo calls and entries (O31): what is pushed is what a pull from below it reads back, wherever SP
stands. -/

namespace Sys2Proof.Machine

/-! ### A word on the stack (20_memory.md R77) -/

/-- RAM after the word `w` is pushed at `sp`, the high byte first. -/
def pushedWord (m : Memory) (sp : Byte) (w : Addr) : Memory :=
  (m.write (stackIndex sp) (hiByte w)).write (stackIndex (sp - 1#8)) (loByte w)

/-- The word that is pulled at `sp`, the low byte first. -/
def pulledWord (m : Memory) (sp : Byte) : Addr :=
  word (m.read (stackIndex (sp + 2#8))) (m.read (stackIndex (sp + 1#8)))

theorem push16_eq_pushedWord (w : Addr) (s : State) :
    push16 w s = (s.setRam (pushedWord s.ram s.cpu.sp w)).setSp (s.cpu.sp - 2#8) := by
  rw [push16_eq, sub_sub]
  rfl

theorem pull16_eq_pulledWord (s : State) :
    pull16 s = (pulledWord s.ram s.cpu.sp, s.setSp (s.cpu.sp + 2#8)) := by
  rw [pull16_eq, add_assoc]
  rfl

/-- Each stack pointer names a byte of its own. -/
theorem stackIndex_inj {a b : Byte} : stackIndex a = stackIndex b ↔ a = b :=
  Nat.add_left_cancel_iff.trans BitVec.toNat_inj

/-- A word pushed is the word pulled, also where the two bytes lie at either end of the stack. -/
theorem pulledWord_pushedWord (m : Memory) (sp : Byte) (w : Addr) : pulledWord (pushedWord m sp w) (sp - 2#8) = w := by
  have high : sp - 2#8 + 2#8 = sp := sub_add_cancel sp _
  have low : sp - 2#8 + 1#8 = sp - 1#8 := by bv_omega
  have apart : sp ≠ sp - 1#8 := by bv_omega
  rw [pulledWord, pushedWord, high, low, Memory.read_write_same, Memory.read_write_ne _ _ (mt stackIndex_inj.mp apart),
    Memory.read_write_same, word_hiByte_loByte]

/-- A pull at `sp` reads above it, so the byte at `sp` does not matter. -/
theorem pulledWord_write_below (m : Memory) (sp b : Byte) : pulledWord (m.write (stackIndex sp) b) sp = pulledWord m sp := by
  have high : sp + 2#8 ≠ sp := by bv_omega
  have low : sp + 1#8 ≠ sp := by bv_omega
  rw [pulledWord, Memory.read_write_ne _ _ (mt stackIndex_inj.mp high),
    Memory.read_write_ne _ _ (mt stackIndex_inj.mp low), pulledWord]

/-! ### The frame of a handler (60_exceptions.md R302) -/

/-- RAM after a return address and a status byte are pushed at `sp`. -/
def pushedFrame (m : Memory) (sp : Byte) (ret : Addr) (status : Byte) : Memory :=
  (pushedWord m sp ret).write (stackIndex (sp - 2#8)) status

theorem pushedFrame_status (m : Memory) (sp : Byte) (ret : Addr) (status : Byte) :
    (pushedFrame m sp ret status).read (stackIndex (sp - 3#8 + 1#8)) = status := by
  have first : sp - 3#8 + 1#8 = sp - 2#8 := by bv_omega
  rw [first, pushedFrame, Memory.read_write_same]

theorem pushedFrame_ret (m : Memory) (sp : Byte) (ret : Addr) (status : Byte) :
    pulledWord (pushedFrame m sp ret status) (sp - 3#8 + 1#8) = ret := by
  have first : sp - 3#8 + 1#8 = sp - 2#8 := by bv_omega
  rw [first, pushedFrame, pulledWord_write_below, pulledWord_pushedWord]

/-- Entering a handler leaves the frame in RAM, SP below it, I set, and PC at the vector's word. -/
theorem enterHandler_eq_pushedFrame {vector : Addr} (h : 0x8000 ≤ vector.toNat) (h' : vector.toNat < 0xFFFF) (ret : Addr)
    (status : Byte) (s : State) :
    enterHandler vector ret status s = (s.setRam (pushedFrame s.ram s.cpu.sp ret status)).withCpu
      { s.cpu with sp := s.cpu.sp - 3#8, p := s.cpu.p ||| 0x04#8, pc := vectorAt s.cart vector } := by
  rw [enterHandler_eq h h', sub_sub, sub_sub]
  rfl

/-- The entry of an NMI is that of its handler, with PC and P as held in the frame, and then B cleared; it costs nothing
(R302, R305). -/
theorem serviceInterrupt_nmi {s : State} (nmi : s.nmiLatch = true) :
    serviceInterrupt s = ((s.setRam (pushedFrame s.ram s.cpu.sp s.cpu.pc s.cpu.p)).withCpu
      { s.cpu with sp := s.cpu.sp - 3#8, p := (s.cpu.p ||| 0x04#8) &&& 0xEF#8,
                   pc := vectorAt s.cart 0xFFFA#16 }).setNmi false := by
  rw [serviceInterrupt, if_pos nmi, interruptEntry, enterHandler_eq_pushedFrame (by decide) (by decide)]
  rfl

/-- RTI pulls the status byte, then the word above it (R244). -/
theorem returnFromHandler_eq_withCpu (s : State) :
    returnFromHandler s = s.withCpu
      { s.cpu with sp := s.cpu.sp + 3#8, p := loadedStatus (s.ram.read (stackIndex (s.cpu.sp + 1#8))),
                   pc := pulledWord s.ram (s.cpu.sp + 1#8) } := by
  have third : s.cpu.sp + 1#8 + 2#8 = s.cpu.sp + 3#8 := add_assoc _ _ _
  simp only [returnFromHandler, pull_eq, pull16_eq_pulledWord, State.setP_sp, State.setSp_sp, third]
  rfl

/-- RTI gives bits 4 and 5 the same values whatever BRK pushed there. -/
theorem loadedStatus_pushedStatus (p : Byte) : loadedStatus (pushedStatus p) = loadedStatus p := by
  have pushed : (p ||| 0x30#8) &&& 0xCF#8 = (p &&& 0xCF#8) ||| (0x30#8 &&& 0xCF#8) := BitVec.and_or_distrib_right
  calc loadedStatus (pushedStatus p) = ((p &&& 0xCF#8) ||| 0x00#8) ||| 0x20#8 := congrArg (· ||| 0x20#8) pushed
    _ = loadedStatus p := by rw [BitVec.or_zero, loadedStatus]

/-! ### Jumps and branches -/

/-- JMP indirect leaves PC at the word read through the pointer, and no other register changed (R143). -/
theorem jumpIndirect_eq_withCpu (w : Addr) (s : State) :
    jumpIndirect w s = (resolveIndirect w s).2.withCpu { s.cpu with pc := (resolveIndirect w s).1 } := by
  have regs : (resolveIndirect w s).2.cpu = s.cpu := by rw [resolveIndirect, busRead_cpu, busRead_cpu]
  rw [← regs]
  rfl

/-- A branch is PC at its target or where it was, and its cost (R135, R234). -/
theorem branchClass_eq_afterRegs (taken : Bool) (d : Byte) (s : State) :
    branchClass taken d s = afterRegs (2 + branchExtra d s.cpu.pc + taken.toNat) s
      { s.cpu with pc := if taken then s.cpu.pc + d.signExtend 16 else s.cpu.pc } := by
  cases taken <;> rfl

/-- Settles O27: the absolute form is a register written, the indirect one the two reads of its pointer and a register
written. -/
theorem jumpsLoadPc : Obligations.JumpsLoadPc := by
  intro w s l h
  refine ⟨?absolute, ?indirect⟩
  case absolute => rfl
  case indirect => exact congrArg (fun t : State => Host.Outcome.next (t.charge 5)) (jumpIndirect_eq_withCpu w s)

/-- Settles O29: the eight are one rule, each with its own flag. -/
theorem branchesFollowTheirFlag : Obligations.BranchesFollowTheirFlag := by
  intro d s go
  refine ⟨?bpl, ?bmi, ?bvc, ?bvs, ?bcc, ?bcs, ?bne, ?beq⟩
  all_goals exact congrArg Host.Outcome.next (branchClass_eq_afterRegs _ d s)

/-! ### Calls, returns, and BRK -/

theorem exec_jsr_eq (w : Addr) (s : State) :
    exec (.jsr w) s = .next (afterStack 6 s (pushedWord s.ram s.cpu.sp (s.cpu.pc - 1#16))
      { s.cpu with sp := s.cpu.sp - 2#8, pc := w }) :=
  congrArg (fun t : State => Host.Outcome.next ((t.setPc w).charge 6)) (push16_eq_pushedWord _ s)

theorem exec_rts_eq (s : State) :
    exec .rts s = .next (afterRegs 6 s
      { s.cpu with sp := s.cpu.sp + 2#8, pc := pulledWord s.ram s.cpu.sp + 1#16 }) := by
  have effect : returnFromCall s =
      s.withCpu { s.cpu with sp := s.cpu.sp + 2#8, pc := pulledWord s.ram s.cpu.sp + 1#16 } := by
    rw [returnFromCall, pull16_eq_pulledWord]
    rfl
  exact congrArg Host.Outcome.next (impliedClass_eq_afterRegs effect 6)

theorem exec_brk_eq (s : State) :
    exec .brk s = .next (afterStack 7 s (pushedFrame s.ram s.cpu.sp (s.cpu.pc + 1#16) (pushedStatus s.cpu.p))
      { s.cpu with sp := s.cpu.sp - 3#8, p := s.cpu.p ||| 0x04#8, pc := vectorAt s.cart 0xFFFE#16 }) :=
  congrArg (fun t : State => Host.Outcome.next (t.charge 7))
    (enterHandler_eq_pushedFrame (by decide) (by decide) (s.cpu.pc + 1#16) (pushedStatus s.cpu.p) s)

theorem exec_rti_eq (s : State) :
    exec .rti s = .next (afterRegs 6 s
      { s.cpu with sp := s.cpu.sp + 3#8, p := loadedStatus (s.ram.read (stackIndex (s.cpu.sp + 1#8))),
                   pc := pulledWord s.ram (s.cpu.sp + 1#8) }) :=
  congrArg Host.Outcome.next (impliedClass_eq_afterRegs (returnFromHandler_eq_withCpu s) 6)

/-- Settles O28: JSR pushes a word and RTS pulls one. -/
theorem callAndReturn : Obligations.CallAndReturn := fun w s => ⟨exec_jsr_eq w s, exec_rts_eq s⟩

/-- Settles O30: BRK enters its handler; RTI pulls the status byte and the word one above it. -/
theorem breakAndReturnFromInterrupt : Obligations.BreakAndReturnFromInterrupt := by
  intro s sp ret b lo hi
  refine ⟨exec_brk_eq s, (exec_rti_eq s).trans ?_⟩
  have second : sp + 1#8 + 1#8 = sp + 2#8 := add_assoc _ _ _
  have third : sp + 1#8 + 2#8 = sp + 3#8 := add_assoc _ _ _
  rw [pulledWord, second, third]
  rfl

/-! ### Returns undo calls and entries -/

/-- RTI where a handler's frame lies above SP takes the registers from it. -/
theorem exec_rti_pushedFrame {t : State} {m : Memory} {sp status : Byte} {ret : Addr}
    (ram : t.ram = pushedFrame m sp ret status) (below : t.cpu.sp = sp - 3#8) :
    exec .rti t = .next (afterRegs 6 t { t.cpu with sp := sp, p := loadedStatus status, pc := ret }) := by
  rw [exec_rti_eq, ram, below, pushedFrame_status, pushedFrame_ret, sub_add_cancel]

/-- RTS where a word pushed lies above SP goes to the address after it. -/
theorem exec_rts_pushedWord {t : State} {m : Memory} {sp : Byte} {w : Addr}
    (ram : t.ram = pushedWord m sp w) (below : t.cpu.sp = sp - 2#8) :
    exec .rts t = .next (afterRegs 6 t { t.cpu with sp := sp, pc := w + 1#16 }) := by
  rw [exec_rts_eq, ram, below, pulledWord_pushedWord, sub_add_cancel]

/-- Settles O31: each return finds above SP what the call or the entry pushed. -/
theorem returnsUndoCallsAndEntries : Obligations.ReturnsUndoCallsAndEntries := by
  intro w s p
  refine ⟨⟨_, _, exec_jsr_eq w s, exec_rts_pushedWord rfl rfl, ?call⟩,
    ⟨_, _, exec_brk_eq s, exec_rti_pushedFrame rfl rfl, ?brk⟩,
    fun nmi => ⟨_, exec_rti_pushedFrame (congrArg State.ram (serviceInterrupt_nmi nmi))
      (congrArg (·.cpu.sp) (serviceInterrupt_nmi nmi)), ?nmi⟩⟩
  case call =>
    change { s.cpu with pc := s.cpu.pc - 1#16 + 1#16 } = s.cpu
    rw [sub_add_cancel]
  case brk =>
    change { s.cpu with p := loadedStatus (pushedStatus s.cpu.p), pc := s.cpu.pc + 1#16 } = _
    rw [loadedStatus_pushedStatus]
    rfl
  case nmi => rw [serviceInterrupt_nmi nmi]; rfl

end Sys2Proof.Machine
end

section
/-! SUPPORT. The statements about 46_unofficial.md: the reserved instructions (O8), where the machine stops (O7), and the
unofficial read-modify-write instructions (O32), each an official shift, rotate, increment or decrement of memory and then
an official operation of A on the byte stored. -/

namespace Sys2Proof.Machine

/-! ### The reserved encodings (R270) -/

/-- Settles O8: `exec` has one arm for each, which raises IllegalOpcode with the instruction's byte. -/
theorem reservedInstructionsStop : Obligations.ReservedInstructionsStop := fun _ _ =>
  ⟨rfl, rfl, rfl, rfl, rfl, rfl, rfl, rfl, rfl, rfl, rfl, rfl⟩

/-- A reserved instruction stops with the byte it is encoded as. -/
theorem exec_of_isReserved {i : Instr} {op : Byte} (reserved : i.isReserved = true) (opcode : i.opcode = some op)
    (s : State) : exec i s = .fault (.illegalOpcode op s) := by
  obtain ⟨kil, anc, ahx, alr, arr, xaa, lxa, axs, shy, shx, tas, las⟩ := reservedInstructionsStop s op
  cases i
  case kil | anc | ahx =>
    obtain ⟨rfl, -⟩ := oneOf_eq_some opcode
    assumption
  case alr | arr | xaa | lxa | axs | shy | shx | tas | las =>
    obtain rfl := Option.some.inj opcode
    assumption
  all_goals cases reserved

/-- Every other instruction completes, whatever its operands and the state. -/
theorem exec_of_not_isReserved {i : Instr} (free : ¬ i.isReserved = true) (s : State) : ∃ t, exec i s = .next t := by
  cases i
  case kil | anc | ahx | alr | arr | xaa | lxa | axs | shy | shx | tas | las => exact absurd rfl free
  all_goals exact ⟨_, rfl⟩

/-! ### Where the machine stops (60_exceptions.md R304, R306) -/

theorem decodeOp_isReserved_iff (op l h : Byte) : (decodeOp op l h).isReserved = true ↔ op ∈ reservedOpcodes := by
  rw [decodeOp_isReserved, List.contains_iff_mem]

theorem opcodeLength_of_reserved : ∀ op ∈ reservedOpcodes, opcodeLength op = 1 := by decide

/-- What is fetched is what the matrix has at the byte read at PC, with some operand bytes. -/
theorem fetchInstr_eq_decodeOp (s : State) : ∃ l h, (fetchInstr s).1 = decodeOp (busRead s.cpu.pc s).1 l h := by
  obtain ⟨one, two, three, lengths⟩ := fetchGoesThroughTheBus s
  obtain length | length | length := lengths
  · exact ⟨_, _, congrArg Prod.fst (one length)⟩
  · exact ⟨_, _, congrArg Prod.fst (two length)⟩
  · exact ⟨_, _, congrArg Prod.fst (three length)⟩

/-- Settles O7: a reserved byte is fetched alone and its instruction stops; with any other byte the instruction completes,
and nothing after it can stop. -/
theorem stepStopsExactlyOnReserved : Obligations.StepStopsExactlyOnReserved := by
  intro s u op
  refine ⟨fun reserved => ?stops, fun free => ?completes⟩
  case stops =>
    obtain ⟨alone, -⟩ := fetchGoesThroughTheBus u
    have stops := exec_of_isReserved ((decodeOp_isReserved_iff op.1 0 0).mpr reserved) (decodeOp_opcode op.1 0 0)
    rw [step, cpuStep, alone (opcodeLength_of_reserved _ reserved), stops]
  case completes =>
    obtain ⟨l, h, fetched⟩ := fetchInstr_eq_decodeOp u
    have isFree : ¬ (fetchInstr u).1.isReserved = true := by rwa [fetched, decodeOp_isReserved_iff]
    obtain ⟨t, completes⟩ := exec_of_not_isReserved isFree (fetchInstr u).2
    exact ⟨finishStep t, by rw [step, cpuStep, completes]⟩

/-! ### The unofficial read-modify-write instructions (R262 to R267) -/

/-- A read-modify-write instruction whose stored byte is `r m`. -/
theorem rmwClass_eq_afterRmw_of_stored {new : Bool → Byte → Byte} {after : Byte → Byte → State → State} {s : State}
    {r : Byte → Byte} {c : Byte → Cpu} (stored : ∀ m, new (s.flag .c) m = r m)
    (h : ∀ m t, t.cpu = s.cpu → after m (r m) t = t.withCpu (c m)) (mem : Mem) :
    rmwClass (rmwBase mem) mem new after s = afterRmw mem s r c := by
  obtain rfl : new (s.flag .c) = r := funext stored
  exact rmwClass_eq_afterRmw h mem

/-- C, A and `SetZN` of A written one after another are A and one write of the three flags. -/
theorem setFlag_c_setA_setZN_eq (s : State) (b : Bool) (a : Byte) :
    ((s.setFlag .c b).setA a).setZN a =
      s.withCpu { s.cpu with a := a, p := writeFlags s.cpu.p 0x83#8 (nzBits a ||| cBit b) } :=
  congrArg (·.setA a) (setFlag_c_setZN_eq s b a)

/-- The carry of a rotate, then a sum with it. -/
theorem addWithCarry_setFlag_c (m : Byte) (b : Bool) (s : State) :
    addWithCarry m (s.setFlag .c b) = s.withCpu (afterAdd { s.cpu with p := writeFlags s.cpu.p 0x01#8 (cBit b) } m) := by
  rw [addWithCarry_eq, setFlag_c_eq]
  rfl

/-- Settles O32: each is the read-modify-write class on the byte of its official half, and then `Compare`, the difference,
a logical operation with the shift's carry, or the sum with it. -/
theorem unofficialReadModifyWrite : Obligations.UnofficialReadModifyWrite := by
  intro mem s c a asl lsr rol ror top low
  have rol_stored (m : Byte) : rolByte (s.flag .c) m = rol m := by rw [rolByte_eq_ofNat, toNat_flag_c]
  have ror_stored (m : Byte) : rorByte (s.flag .c) m = ror m := by rw [rorByte_eq_ofNat, toNat_flag_c]
  refine ⟨?dcp, ?isb, ?slo, ?rla, ?sre, ?rra⟩
  all_goals refine congrArg Host.Outcome.next ?_
  case dcp =>
    refine rmwClass_eq_afterRmw (fun m t regs => ?_) mem
    rw [compareBytes_eq, State.setP, regs]
    rfl
  case isb => exact rmwClass_eq_afterRmw (fun m t regs => by rw [subWithBorrow_eq, regs]) mem
  case slo =>
    refine rmwClass_eq_afterRmw_of_stored aslByte_eq_ofNat (fun m t regs => ?_) mem
    rw [setFlag_c_setA_setZN_eq, bit_seven, regs]
  case rla =>
    refine rmwClass_eq_afterRmw_of_stored rol_stored (fun m t regs => ?_) mem
    rw [setFlag_c_setA_setZN_eq, bit_seven, regs]
  case sre =>
    refine rmwClass_eq_afterRmw_of_stored lsrByte_eq_ofNat (fun m t regs => ?_) mem
    rw [setFlag_c_setA_setZN_eq, bit_zero, regs]
  case rra =>
    refine rmwClass_eq_afterRmw_of_stored ror_stored (fun m t regs => ?_) mem
    rw [addWithCarry_setFlag_c, bit_zero, regs]

end Sys2Proof.Machine
end

section
/-! SUPPORT. Taking an interrupt (60_exceptions.md R302 to R305): the entry of an NMI (O40) and of an IRQ (O41), and when
neither is taken. -/

namespace Sys2Proof.Machine

/-- An interrupt's entry leaves the frame in RAM with PC and P as held, SP below it, I set and B clear, and PC at the
vector's word (R302). -/
theorem interruptEntry_eq_pushedFrame {vector : Addr} (h : 0x8000 ≤ vector.toNat) (h' : vector.toNat < 0xFFFF) (s : State) :
    interruptEntry vector s = (s.setRam (pushedFrame s.ram s.cpu.sp s.cpu.pc s.cpu.p)).withCpu
      { s.cpu with sp := s.cpu.sp - 3#8, p := (s.cpu.p ||| 0x04#8) &&& 0xEF#8, pc := vectorAt s.cart vector } := by
  rw [interruptEntry, enterHandler_eq_pushedFrame h h']
  rfl

section
variable {s : State} (noNmi : s.nmiLatch = false)
include noNmi

/-- With no NMI waiting, an IRQ that I does not mask is entered, at no cost (R303, R305). -/
theorem serviceInterrupt_irq (irq : s.irqLatch = true) (unmasked : s.flag .i = false) :
    serviceInterrupt s = ((s.setRam (pushedFrame s.ram s.cpu.sp s.cpu.pc s.cpu.p)).withCpu
      { s.cpu with sp := s.cpu.sp - 3#8, p := (s.cpu.p ||| 0x04#8) &&& 0xEF#8,
                   pc := vectorAt s.cart 0xFFFE#16 }).setIrq false := by
  rw [serviceInterrupt, if_neg (by simp [noNmi]), if_pos (by simp [irq, unmasked]),
    interruptEntry_eq_pushedFrame (by decide) (by decide)]
  rfl

/-- With no NMI waiting, and no IRQ or a masked one, nothing happens (R303). -/
theorem serviceInterrupt_none (h : s.irqLatch = false ∨ s.flag .i = true) : serviceInterrupt s = s := by
  rw [serviceInterrupt, if_neg (by simp [noNmi]), if_neg]
  rintro ⟨irq, unmasked⟩
  obtain h | h := h
  · exact Bool.noConfusion (h.symm.trans irq)
  · exact unmasked h

end

/-- No input touches the NMI latch. -/
@[simp] theorem beginStep_nmiLatch (s : State) : (beginStep s).nmiLatch = s.nmiLatch := by
  obtain ⟨l, b1, b2, q, h⟩ := beginStep_cases s; rw [h]; rfl

/-- Nor does the DMA Unit. -/
@[simp] theorem runDma_nmiLatch (s : State) : (runDma s).nmiLatch = s.nmiLatch := by
  obtain ⟨oam, d, o, h⟩ := runDma_writes s; rw [h]; rfl

/-- P as an interrupt's entry leaves it has I set. -/
theorem bit_enteredStatus (p : Byte) : bit ((p ||| 0x04#8) &&& 0xEF#8) 2 = true := by simp [bit]

/-- Settles O40: the entry's frame is three bytes written one after another; I set by it masks the IRQ that waits. -/
theorem nmiEntry : Obligations.NmiEntry := by
  intro s sp t
  refine ⟨by rw [runDma_nmiLatch, beginStep_nmiLatch], fun nmi => ?entry, fun ⟨nmi, irq⟩ => ?both⟩
  case entry => exact serviceInterrupt_nmi nmi
  case both =>
    have entered : t = _ := serviceInterrupt_nmi nmi
    have latched : t.irqLatch = true := by rw [entered]; exact irq
    have masked : t.flag .i = true := by rw [entered]; exact bit_enteredStatus _
    exact ⟨latched, masked, serviceInterrupt_none (by rw [entered]; rfl) (.inr masked)⟩

/-- Settles O41: entered where I is 0, and nothing done where I is 1 or no IRQ waits. -/
theorem irqEntryWhenNotMasked : Obligations.IrqEntryWhenNotMasked := fun _ noNmi =>
  ⟨fun ⟨irq, unmasked⟩ => serviceInterrupt_irq noNmi irq unmasked,
    fun ⟨_, masked⟩ => serviceInterrupt_none noNmi (.inr masked),
    fun noIrq => serviceInterrupt_none noNmi (.inl noIrq)⟩

end Sys2Proof.Machine
end

section
/-! SUPPORT. The PPU's registers as the CPU sees them (60_exceptions.md R321 to R332): writes (O42, O43), reads with an
effect (O44). -/

namespace Sys2Proof.Machine

/-! ### Writing -/

theorem busWrite_of_ppu {a : Addr} (h : IsPpuAddr a) (v : Byte) (s : State) :
    busWrite a v s = s.setPpu (ppuRegWrite ((a.toNat - 0x2000) % 8) v s.ppu) := by
  rw [busWrite, route_of_ppu h]

theorem writeScroll_first {p : Ppu} (h : p.scrollToggle = false) (v : Byte) :
    writeScroll v p = { p with scrollX := v, scrollToggle := true } := by
  rw [writeScroll, h]; rfl

theorem writeScroll_second {p : Ppu} (h : p.scrollToggle = true) (v : Byte) :
    writeScroll v p = { p with scrollY := v, scrollToggle := false } := by
  rw [writeScroll, h]; rfl

theorem writeVramAddr_first {p : Ppu} (h : p.addrToggle = false) (v : Byte) :
    writeVramAddr v p = { p with vramAddr := word v 0x00#8, addrToggle := true } := by
  rw [writeVramAddr, h]; rfl

theorem writeVramAddr_second {p : Ppu} (h : p.addrToggle = true) (v : Byte) :
    writeVramAddr v p = { p with vramAddr := word (hiByte p.vramAddr) v, addrToggle := false } := by
  rw [writeVramAddr, h]; rfl

/-- The video address moves on by 1 or 32, as bit 2 of the control register says (R328). -/
theorem advance_eq (p : Ppu) :
    p.advance = { p with vramAddr := p.vramAddr + if bit p.ctrl 2 then 32#16 else 1#16 } := by
  unfold Ppu.advance Ppu.increment
  split <;> rfl

/-- A data write stores on the PPU bus, which keeps the control register and the video address that move on after it. -/
theorem writeVramData_eq (v : Byte) (p : Ppu) :
    writeVramData v p = { busWritePpu p.vramAddr v p with
      vramAddr := p.vramAddr + if bit p.ctrl 2 then 32#16 else 1#16 } := by
  have moved : (busWritePpu p.vramAddr v p).vramAddr +
      (if bit (busWritePpu p.vramAddr v p).ctrl 2 then 32#16 else 1#16) =
      p.vramAddr + if bit p.ctrl 2 then 32#16 else 1#16 := by rw [busWritePpu_eq]
  rw [writeVramData, advance_eq, moved]

/-! ### Reading -/

/-- The status byte has the two flags in bits 7 and 6 and 0 below (R329). -/
theorem readStatus_eq (p : Ppu) :
    readStatus p = (BitVec.ofNat 8 (128 * p.vblank.toNat + 64 * p.sprite0Hit.toNat),
      { p with vblank := false, scrollToggle := false }) := by
  have byte : ∀ vblank hit : Bool,
      withBit (withBit 0x00#8 7 vblank) 6 hit = BitVec.ofNat 8 (128 * vblank.toNat + 64 * hit.toNat) := by decide
  rw [readStatus, byte]

/-- Below the palette a data read gives the buffer and fills it from the PPU bus (R331). -/
theorem readVramData_buffered {p : Ppu} (h : p.vramAddr.toNat % 0x4000 < 0x3F00) :
    readVramData p = (p.readBuf, { p with readBuf := busReadPpu p.vramAddr p }.advance) := by
  simp only [readVramData, if_neg (Nat.not_le.mpr h)]

/-- In the palette a data read gives the byte on the PPU bus and leaves the buffer (R331). -/
theorem readVramData_palette {p : Ppu} (h : 0x3F00 ≤ p.vramAddr.toNat % 0x4000) :
    readVramData p = (busReadPpu p.vramAddr p, p.advance) := by
  simp only [readVramData, if_pos h, busReadPpu_of_palette h, palRead, palette_mod]

/-- Both ways the video address moves on. -/
theorem readVramData_vramAddr (p : Ppu) :
    (readVramData p).2.vramAddr = p.vramAddr + if bit p.ctrl 2 then 32#16 else 1#16 := by
  obtain below | palette := Nat.lt_or_ge (p.vramAddr.toNat % 0x4000) 0x3F00
  · rw [readVramData_buffered below, advance_eq]
  · rw [readVramData_palette palette, advance_eq]

section
variable {a : Addr} (h : IsPpuAddr a)
include h

theorem busRead_of_status (k : (a.toNat - 0x2000) % 8 = 2) (s : State) :
    busRead a s = ((readStatus s.ppu).1, s.setPpu (readStatus s.ppu).2) := by
  rw [busRead_of_ppu h, k]; rfl

theorem busRead_of_oamData (k : (a.toNat - 0x2000) % 8 = 4) (s : State) :
    busRead a s = (s.ppu.oam.read s.ppu.oamAddr.toNat, s) := by
  rw [busRead_of_ppu h, k]; rfl

theorem busRead_of_vramData (k : (a.toNat - 0x2000) % 8 = 7) (s : State) :
    busRead a s = ((readVramData s.ppu).1, s.setPpu (readVramData s.ppu).2) := by
  rw [busRead_of_ppu h, k]; rfl

end

/-! ### The registers -/

/-- Settles O42: each offset's write is one update, the scroll's by its toggle; the reads are the status and the sprite
byte. -/
theorem ppuPlainRegisters : Obligations.PpuPlainRegisters := by
  intro a v s h k
  have write : busWrite a v s = s.setPpu (ppuRegWrite k v s.ppu) := busWrite_of_ppu h v s
  refine ⟨fun hk => ?ctrl, fun hk => ?mask, fun hk => ?oamAddr, fun ⟨hk, first⟩ => ?scrollX, fun ⟨hk, second⟩ => ?scrollY,
    fun hk => ?status, fun hk => busRead_of_oamData h hk s⟩
  case ctrl | mask | oamAddr => rw [write, hk]; rfl
  case scrollX => rw [write, hk, ← writeScroll_first first]; rfl
  case scrollY => rw [write, hk, ← writeScroll_second second]; rfl
  case status => rw [busRead_of_status h hk]; rfl

/-- Settles O43: each offset's write is one update, the address's by its toggle, the data's on the PPU bus. -/
theorem ppuDataWrites : Obligations.PpuDataWrites := by
  intro a v s h k p
  have write : busWrite a v s = s.setPpu (ppuRegWrite k v p) := busWrite_of_ppu h v s
  refine ⟨fun hk => ?status, fun hk => ?oamData, fun ⟨hk, first⟩ => ?high, fun ⟨hk, second⟩ => ?low, fun hk => ?data⟩
  case status | oamData => rw [write, hk]; rfl
  case high => rw [write, hk, ← writeVramAddr_first first]; rfl
  case low => rw [write, hk, ← writeVramAddr_second second]; rfl
  case data => rw [write, hk, ← writeVramData_eq]; rfl

/-- Settles O44: the status read is one update; a data read is by its range, and the next one gives what the buffer then
holds. -/
theorem ppuReadsWithEffects : Obligations.PpuReadsWithEffects := by
  intro a b s ha hb k at1 r1 r2
  have data (hk : k = 7) : r1 = ((readVramData s.ppu).1, s.setPpu (readVramData s.ppu).2) := busRead_of_vramData ha hk s
  have buffered (hk : k = 7) (below : at1 < 0x3F00) :
      r1.1 = s.ppu.readBuf ∧ r1.2.ppu.readBuf = busReadPpu s.ppu.vramAddr s.ppu := by
    rw [data hk, readVramData_buffered below]
    exact ⟨rfl, rfl⟩
  refine ⟨fun hk => ?status, fun hk => ?moves, fun ⟨hk, below⟩ => buffered hk below,
    fun ⟨hk, below, hk', below'⟩ => ?late, fun ⟨hk, palette⟩ => ?immediate, fun hk => ?writeOnly⟩
  case status => exact (busRead_of_status ha hk s).trans (by rw [readStatus_eq])
  case moves =>
    rw [data hk]
    exact readVramData_vramAddr s.ppu
  case late =>
    have second : r2.1 = r1.2.ppu.readBuf := by
      change (busRead b r1.2).1 = _
      rw [busRead_of_vramData hb hk', readVramData_buffered below']
    rw [second, (buffered hk below).2]
  case immediate =>
    rw [data hk, readVramData_palette palette]
    exact ⟨rfl, rfl⟩
  case writeOnly =>
    have read : r1 = ((ppuRegRead k s.ppu).1, s.setPpu (ppuRegRead k s.ppu).2) := busRead_of_ppu ha s
    obtain hk | hk | hk | hk | hk := hk <;> rw [read, hk] <;> rfl

end Sys2Proof.Machine
end

section
/-! SUPPORT. The beam (60_exceptions.md R310, R311, R316): dots may be fed in any chunks (O48), any number of them moves the
beam that far (O49), and a frame of 89,342 puts out one record (O47). -/

namespace Sys2Proof.Machine

/-! ### Dots still to be counted off -/

/-- The beam `n` dots further on, before the scanlines that these complete. -/
def addDots (n : Nat) (s : State) : State := s.setPpu { s.ppu with dot := s.ppu.dot + n }

@[simp] theorem addDots_dot (n : Nat) (s : State) : (addDots n s).ppu.dot = s.ppu.dot + n := rfl
@[simp] theorem addDots_line (n : Nat) (s : State) : (addDots n s).ppu.line = s.ppu.line := rfl

theorem ppuRun_eq (n : Nat) (s : State) : ppuRun n s = linesComplete ((s.ppu.dot + n) / 341) (addDots n s) := rfl

theorem addDots_addDots (m n : Nat) (s : State) : addDots n (addDots m s) = addDots (m + n) s := by
  rw [addDots, addDots_dot, Nat.add_assoc]
  rfl

/-- A background row does not depend on the dot. -/
theorem backgroundRow_dot (horizontal : Bool) (p : Ppu) (line dot : Nat) :
    backgroundRow horizontal { p with line := line, dot := dot } = backgroundRow horizontal { p with line := line } :=
  rfl

/-- Nor does the frame's end. -/
theorem frameEnd_addDots (n : Nat) (s : State) : frameEnd (addDots n s) = addDots n (frameEnd s) := rfl

/-- A scanline's completion looks at the dots only to take 341 away, so dots beyond these may be added before or after it. -/
theorem lineComplete_addDots {s : State} (h : 341 ≤ s.ppu.dot) (n : Nat) :
    lineComplete (addDots n s) = addDots n (lineComplete s) := by
  have dots : s.ppu.dot + n - 341 = s.ppu.dot - 341 + n := by omega
  have before : beforeFrameEnd (addDots n s) = addDots n (beforeFrameEnd s) := by
    unfold beforeFrameEnd addDots
    simp only [State.setPpu_ppu, State.setPpu_cart, State.setNmi_ppu, dots]
    rw [backgroundRow_dot _ s.ppu _ (s.ppu.dot + n)]
    rfl
  rw [lineComplete_eq_beforeFrameEnd, lineComplete_eq_beforeFrameEnd, before, addDots_line]
  split
  · exact frameEnd_addDots n _
  · rfl

theorem linesComplete_addDots (k : Nat) {s : State} (h : 341 * k ≤ s.ppu.dot) (n : Nat) :
    linesComplete k (addDots n s) = addDots n (linesComplete k s) := by
  induction k generalizing s with
  | zero => rfl
  | succ k ih =>
    have dot : (lineComplete s).ppu.dot = s.ppu.dot - 341 := (lineCompletion s).1
    rw [linesComplete, lineComplete_addDots (by omega), ih (by omega), linesComplete]

theorem linesComplete_linesComplete (j k : Nat) (s : State) :
    linesComplete k (linesComplete j s) = linesComplete (j + k) s := by
  induction j generalizing s with
  | zero => rw [Nat.zero_add]; rfl
  | succ j ih => rw [Nat.succ_add]; exact ih (lineComplete s)

/-! ### Chunks -/

/-- The dots left over are those that complete no further line. -/
theorem ppuRun_dot (n : Nat) (s : State) : (ppuRun n s).ppu.dot = (s.ppu.dot + n) % 341 := by
  rw [ppuRun_eq, linesComplete_dot, addDots_dot]
  omega

/-- Two runs are one: the lines of the second complete after those of the first, whose left-over dots count on. -/
theorem ppuRun_ppuRun (m n : Nat) (s : State) : ppuRun n (ppuRun m s) = ppuRun (m + n) s := by
  have lines : (s.ppu.dot + m) / 341 + ((s.ppu.dot + m) % 341 + n) / 341 = (s.ppu.dot + (m + n)) / 341 := by omega
  rw [ppuRun_eq n, ppuRun_dot, ppuRun_eq m, ← linesComplete_addDots _ (by rw [addDots_dot]; omega), addDots_addDots,
    linesComplete_linesComplete, lines, ppuRun_eq]

/-- From a beam at rest, chunks of dots are one run of their sum. -/
theorem ppuRuns_eq_ppuRun_sum (chunks : List Nat) {s : State} (h : s.ppu.dot < 341) :
    ppuRuns chunks s = ppuRun chunks.sum s := by
  induction chunks generalizing s with
  | nil =>
    have lines : (s.ppu.dot + 0) / 341 = 0 := by omega
    rw [List.sum_nil, ppuRun_eq, lines]
    rfl
  | cons n ns ih =>
    rw [List.sum_cons, ← ppuRun_ppuRun]
    exact ih (ppuRun_dot_lt n s)

/-- Settles O48: below 341 dots no line completes, below 682 one. -/
theorem dotsInAnyChunking : Obligations.DotsInAnyChunking := by
  intro m n s moved
  refine ⟨ppuRun_ppuRun m n s, fun h => ?_, fun ⟨low, high⟩ => ?_⟩
  · have lines : (s.ppu.dot + n) / 341 = 0 := by omega
    rw [ppuRun_eq, lines]
    rfl
  · have lines : (s.ppu.dot + n) / 341 = 1 := by omega
    rw [ppuRun_eq, lines]
    rfl

/-! ### The beam's position -/

theorem linesComplete_line (k : Nat) {s : State} (h : s.ppu.line < 262) :
    (linesComplete k s).ppu.line = (s.ppu.line + k) % 262 := by
  induction k generalizing s with
  | zero => exact (Nat.mod_eq_of_lt h).symm
  | succ k ih =>
    have next := lineComplete_line s
    rw [linesComplete, ih (by rw [next]; split <;> omega), next]
    split <;> omega

theorem ppuRun_line (n : Nat) {s : State} (h : s.ppu.line < 262) :
    (ppuRun n s).ppu.line = (s.ppu.line + (s.ppu.dot + n) / 341) % 262 :=
  linesComplete_line _ (s := addDots n s) h

theorem Ppu.frameDots_eq (p : Ppu) : p.frameDots = p.line * 341 + p.dot := rfl

/-- Settles O49: lines and dots are the quotient and the remainder of the beam's place in the frame. -/
theorem beamPosition : Obligations.BeamPosition := by
  intro n s hline hdot t
  have line : t.ppu.line = _ := ppuRun_line n hline
  have dot : t.ppu.dot = _ := ppuRun_dot n s
  have frames : t.out.frames.length = _ := ppuRun_frames_length hline n
  rw [Ppu.frameDots_eq, Ppu.frameDots_eq, line, dot, frames]
  refine ⟨?_, ?_, ?_, ?_⟩ <;> omega

/-! ### Frame records -/

/-- Scanlines add records at the end and keep those put out. -/
theorem linesComplete_frames (k : Nat) (s : State) :
    ∃ later, (linesComplete k s).out.frames = s.out.frames ++ later := by
  induction k generalizing s with
  | zero => exact ⟨[], (List.append_nil _).symm⟩
  | succ k ih =>
    obtain ⟨_, _, _, _, _, _, _, frames, _⟩ := lineCompletion s
    obtain ⟨later, h⟩ := ih (lineComplete s)
    rw [linesComplete, h, frames]
    split
    · exact ⟨framePayload s.ppu :: later, List.append_assoc _ _ _⟩
    · exact ⟨later, rfl⟩

/-- The last of a frame's 262 scanlines clears vblank. -/
theorem linesComplete_wholeFrame_vblank {s : State} (h : s.ppu.line = 0) : (linesComplete 262 s).ppu.vblank = false := by
  have last : (linesComplete 261 s).ppu.line = 261 := by rw [linesComplete_line 261 (by omega), h]
  obtain ⟨_, _, _, _, vblank, _⟩ := lineCompletion (linesComplete 261 s)
  rw [last] at vblank
  have frame : linesComplete 262 s = lineComplete (linesComplete 261 s) := (linesComplete_linesComplete 261 1 s).symm
  rw [frame]
  exact vblank

/-- Settles O47: the frame's end is one update; a frame's dots, however cut up, are one run of 262 scanlines. -/
theorem frameEndOncePerFrame : Obligations.FrameEndOncePerFrame := by
  refine ⟨fun s => ⟨rfl, rfl, rfl, rfl, rfl, rfl, rfl⟩, fun s chunks line dot sum => ?frame,
    fun n s => linesComplete_frames _ (addDots n s)⟩
  case frame =>
    have lines : (s.ppu.dot + 262 * 341) / 341 = 262 := by omega
    rw [ppuRuns_eq_ppuRun_sum chunks (by omega), sum]
    refine ⟨?_, ?_, ?_, ?_⟩
    · rw [ppuRun_frames_length (by omega), line, lines]
    · rw [ppuRun_eq, lines]
      exact linesComplete_wholeFrame_vblank line
    · rw [ppuRun_line _ (by omega), line, lines]
    · rw [ppuRun_dot, dot]

end Sys2Proof.Machine
end

section
/-! SUPPORT. What the frame buffers hold (60_exceptions.md R313, R314, R317 to R319): a pattern's pixels, the tiles of a
background row (O50) and the sprites (O51), by numbers. -/

namespace Sys2Proof.Machine

/-! ### Patterns -/

theorem bit_toNat (b : Byte) (k : Nat) : (bit b k).toNat = b.toNat / 2 ^ k % 2 := Nat.toNat_testBit _ _

/-- A pixel is two bits, one from each plane (R319). -/
theorem buildPattern_pixel (pat : Memory) (base : Nat) (id : Byte) (r c : Fin 8) :
    ((buildPattern pat base id)[r][c]).toNat =
      (pat.read (base + id.toNat * 16 + r)).toNat / 2 ^ (7 - c.val) % 2 +
      2 * ((pat.read (base + id.toNat * 16 + 8 + r)).toNat / 2 ^ (7 - c.val) % 2) := by
  have pixel : (buildPattern pat base id)[r][c] = patternPixel pat base id r c := by simp [buildPattern]
  have plane : base + id.toNat * 16 + r + 8 = base + id.toNat * 16 + 8 + r := Nat.add_right_comm _ _ _
  simp only [pixel, patternPixel, bit_toNat, plane, BitVec.toNat_ofNat]
  omega

/-! ### Tiles -/

theorem mirrorIndex_eq (horizontal : Bool) (i : Nat) :
    mirrorIndex horizontal i =
      if horizontal ∧ (0x400 ≤ i ∧ i < 0x800 ∨ 0xC00 ≤ i) then i - 0x400 else i :=
  if_congr (by simp) rfl rfl

/-- The tile's two palette bits are a digit to the base 4 of its attribute byte (R314). -/
theorem shiftRight_double (n k : Nat) : n >>> (k * 2) = n / 4 ^ k := by
  rw [Nat.shiftRight_eq_div_pow, Nat.mul_comm, Nat.pow_mul]

/-- Settles O50: tile by tile, the attribute's two bits as a digit to the base 4 and the pixels by their planes. -/
theorem backgroundRowTiles : Obligations.BackgroundRowTiles := by
  intro horizontal p
  refine ⟨length_backgroundRow horizontal p, ?_⟩
  intro k hk ax ay off tx ty mirror id attr base
  have low : (bit p.ctrl 0).toNat = p.ctrl.toNat % 2 := by rw [bit_toNat, pow_zero, Nat.div_one]
  have high : (bit p.ctrl 1).toNat = p.ctrl.toNat / 2 % 2 := by rw [bit_toNat, pow_one]
  have tile : (backgroundRow horizontal p)[k]? =
      some (buildTile p.vram p.pat horizontal p.bgTable p.scrollX p.scrollY tx ty off) := by
    simp only [backgroundRow, low, high]
    rw [List.getElem?_map, List.getElem?_range hk]
    rfl
  refine ⟨_, tile, ?palette, rfl, rfl, fun r c => ?pixel⟩
  case palette =>
    simp only [buildTile, mirrorIndex_eq, shiftRight_double, BitVec.toNat_ofNat]
    rfl
  case pixel =>
    simp only [buildTile, mirrorIndex_eq]
    exact buildPattern_pixel _ _ _ r c

/-! ### Sprites -/

/-- Settles O51: sprite by sprite, Y as a byte less 8 and the pixels by their planes. -/
theorem spriteList : Obligations.SpriteList := by
  intro oam pat upper
  refine ⟨length_buildSprites oam pat upper, ?_⟩
  intro i hi base id
  have sprite : (buildSprites oam pat upper)[i]? = some (buildSprite oam pat upper i) := by
    rw [buildSprites, List.getElem?_map, List.getElem?_range hi]
    rfl
  refine ⟨_, sprite, ?y, rfl, rfl, rfl, fun r c => buildPattern_pixel _ _ _ r c⟩
  case y =>
    have y : (oam.read (4 * i) - 8#8).toNat = _ := BitVec.toNat_sub _ _
    exact y.trans (congrArg (· % 256) (Nat.add_comm _ _))

end Sys2Proof.Machine
end

section
/-! SUPPORT. The DMA transfer (O52), the controller ports (O53), the audio port (O54) and the inputs (O55) of
60_exceptions.md R340 to R350. -/

namespace Sys2Proof.Machine

/-! ### The DMA transfer (R341) -/

/-- The index in sprite memory that the transfer's byte `i` is stored at: the address wraps. -/
theorem dmaByte_index (oamAddr : Byte) (i : Nat) : (oamAddr + BitVec.ofNat 8 i).toNat = (oamAddr.toNat + i) % 256 := by
  simp [BitVec.toNat_add]

/-- Of the transfer's first bytes, each is found where it was stored: the later ones are stored elsewhere. -/
theorem read_dmaFold (ram oam : Memory) (page oamAddr : Byte) {n i : Nat} (hn : n ≤ 256) (hi : i < n) :
    ((List.range n).foldl (dmaByte ram page oamAddr) oam).read ((oamAddr.toNat + i) % 256) =
      ram.read ((page.toNat * 256 + i) % 0x800) := by
  induction n with
  | zero => omega
  | succ n ih =>
    rw [List.range_succ, List.foldl_append, List.foldl_cons, List.foldl_nil, dmaByte, dmaByte_index, Memory.read_write]
    split
    · next same =>
      have last : i = n := by omega
      rw [last]; rfl
    · next other =>
      have earlier : i ≠ n := fun e => other (by rw [e])
      exact ih (by omega) (by omega)

/-- The transfer's 256 bytes are each found where they were stored. -/
theorem read_dmaCopy (ram oam : Memory) (page oamAddr : Byte) {i : Nat} (hi : i < 256) :
    (dmaCopy ram page oamAddr oam).read ((oamAddr.toNat + i) % 256) = ram.read ((page.toNat * 256 + i) % 0x800) :=
  read_dmaFold ram oam page oamAddr (le_refl 256) hi

theorem runDma_of_pending {s : State} (h : s.dma.pending = true) :
    runDma s = ((s.setPpu { s.ppu with oam := dmaCopy s.ram s.dma.page s.ppu.oamAddr s.ppu.oam }).setDma
      { s.dma with pending := false }).setOut { s.out with dmaCycles := s.out.dmaCycles + 514 } := by
  rw [runDma, if_pos h, dmaTransfer]
  rfl

/-- Settles O52: byte by byte of the copy, each index stored once; the rest is the transfer's own update. -/
theorem dmaTransferCopiesAPage : Obligations.DmaTransferCopiesAPage := by
  intro s t
  refine ⟨fun pending => ?pending, fun idle => ?idle⟩
  case pending =>
    have run : t = _ := runDma_of_pending pending
    have copied : t.ppu.oam = dmaCopy s.ram s.dma.page s.ppu.oamAddr s.ppu.oam := by
      rw [run, State.setOut_ppu, State.setDma_ppu, State.setPpu_ppu]
    rw [copied]
    exact ⟨fun i hi => read_dmaCopy s.ram s.ppu.oam s.dma.page s.ppu.oamAddr hi, run⟩
  case idle => exact if_neg (by rw [idle]; decide)

/-! ### The controller ports (R345, R346) -/

theorem busWrite_of_port1 {a : Addr} (h : a.toNat = 0x4016) (v : Byte) (s : State) :
    busWrite a v s = s.setPort1 (controllerWrite s.buttons1 v s.port1) := by
  rw [busWrite, route_of_port1 h]

theorem busWrite_of_port2 {a : Addr} (h : a.toNat = 0x4017) (v : Byte) (s : State) :
    busWrite a v s = s.setPort2 (controllerWrite s.buttons2 v s.port2) := by
  rw [busWrite, route_of_port2 h]

section
variable {v w : Byte} (buttons : Vector Bool 8) (c : Controller)

/-- A byte with bit 0 set latches the buttons. -/
theorem controllerWrite_of_odd (h : v.toNat % 2 = 1) :
    controllerWrite buttons v c = { c with strobe := true, shift := buttons } := by
  rw [controllerWrite, if_pos (by rw [bit_zero, h]; rfl)]

/-- A byte with bit 0 clear starts the reads again. -/
theorem controllerWrite_of_even (h : v.toNat % 2 = 0) :
    controllerWrite buttons v c = { c with strobe := false, index := 0 } := by
  rw [controllerWrite, if_neg (by rw [bit_zero, h]; decide)]

/-- The two writes one after the other: the buttons are latched, and the first is the next to be read. -/
theorem controllerWrite_odd_even (hv : v.toNat % 2 = 1) (hw : w.toNat % 2 = 0) :
    controllerWrite buttons w (controllerWrite buttons v c) = { strobe := false, shift := buttons, index := 0 } := by
  rw [controllerWrite_of_odd buttons c hv, controllerWrite_of_even buttons _ hw]

end

/-- A port from which `n` buttons were read: its index has moved on, from the eighth button to the first. -/
def Controller.shifted (c : Controller) (n : Nat) : Controller := { c with index := c.index + Fin.ofNat 8 n }

theorem Controller.shifted_zero (c : Controller) : c.shifted 0 = c := by
  have index : c.index + Fin.ofNat 8 0 = c.index := add_zero c.index
  rw [Controller.shifted, index]

theorem controllerRead_shifted (c : Controller) (n : Nat) : (controllerRead (c.shifted n)).2 = c.shifted (n + 1) := by
  have next : Fin.ofNat 8 n + 1 = Fin.ofNat 8 (n + 1) := Fin.ext (Nat.mod_add_mod n 8 1)
  have index : c.index + Fin.ofNat 8 n + 1 = c.index + Fin.ofNat 8 (n + 1) := by rw [add_assoc, next]
  simp only [controllerRead, Controller.shifted, index]

theorem afterReads_port1 {a : Addr} (h : a.toNat = 0x4016) (n : Nat) (s : State) :
    afterReads n a s = s.setPort1 (s.port1.shifted n) := by
  induction n with
  | zero => rw [afterReads, Controller.shifted_zero]; rfl
  | succ n ih =>
    rw [afterReads, ih, busRead_of_port1 h, State.setPort1_port1, controllerRead_shifted]
    rfl

theorem afterReads_port2 {a : Addr} (h : a.toNat = 0x4017) (n : Nat) (s : State) :
    afterReads n a s = s.setPort2 (s.port2.shifted n) := by
  induction n with
  | zero => rw [afterReads, Controller.shifted_zero]; rfl
  | succ n ih =>
    rw [afterReads, ih, busRead_of_port2 h, State.setPort2_port2, controllerRead_shifted]
    rfl

/-- From the first button on, the read after `n` others gives button `n` modulo 8. -/
theorem controllerRead_button {c : Controller} (first : c.index = 0) (n : Nat) :
    (controllerRead (c.shifted n)).1 = if c.shift[n % 8]'(Nat.mod_lt n (by decide)) then 0x01#8 else 0x00#8 := by
  simp [controllerRead, Controller.shifted, first]

/-- Settles O53: the two ports are one rule, each with its own buttons. -/
theorem controllersShiftOutButtons : Obligations.ControllersShiftOutButtons := by
  intro v w n s k p1 p2 q1 q2
  have write1 (b : Byte) (t : State) := busWrite_of_port1 (a := 0x4016#16) (by decide) b t
  have write2 (b : Byte) (t : State) := busWrite_of_port2 (a := 0x4017#16) (by decide) b t
  refine ⟨fun odd => ?latch, fun even => ?restart, fun ⟨odd, even⟩ => ?shift⟩
  case latch =>
    rw [write1, write2, controllerWrite_of_odd _ _ odd, controllerWrite_of_odd _ _ odd]
    exact ⟨rfl, rfl⟩
  case restart =>
    rw [write1, write2, controllerWrite_of_even _ _ even, controllerWrite_of_even _ _ even]
    exact ⟨rfl, rfl⟩
  case shift =>
    have latched1 : p1 = s.setPort1 { strobe := false, shift := s.buttons1, index := 0 } := by
      rw [← controllerWrite_odd_even s.buttons1 s.port1 odd even]
      exact (write1 w _).trans (by rw [write1]; rfl)
    have latched2 : p2 = s.setPort2 { strobe := false, shift := s.buttons2, index := 0 } := by
      rw [← controllerWrite_odd_even s.buttons2 s.port2 odd even]
      exact (write2 w _).trans (by rw [write2]; rfl)
    have read1 : q1 = _ := afterReads_port1 (by decide) n p1
    have read2 : q2 = _ := afterReads_port2 (by decide) n p2
    rw [read1, read2, latched1, latched2, busRead_of_port1 (by decide), busRead_of_port2 (by decide)]
    exact ⟨controllerRead_button rfl n, controllerRead_button rfl n, rfl, rfl⟩

/-! ### The audio port (R348) and the inputs (R350) -/

/-- Settles O54: an audio address is answered by no other device; the tick counts what the step's PPU run leaves. -/
theorem audioPort : Obligations.AudioPort := by
  refine ⟨fun a v s range => ?access, fun s t h => ?tick⟩
  case access =>
    have audio : IsAudioAddr a := ⟨by omega, by omega, by omega, by omega, by omega⟩
    exact ⟨busWrite_of_audio audio v s, busRead_of_audio audio s⟩
  case tick =>
    obtain ⟨u, _, rfl⟩ := step_cases h
    rfl

/-- Events that are due land one after another. -/
theorem beginStep_append (s : State) (now : List InputEvent) (later : List (List InputEvent)) (e : InputEvent) :
    beginStep (s.setInputs ((now ++ [e]) :: later)) = applyInput (beginStep (s.setInputs (now :: later))) e :=
  List.foldl_append

/-- Settles O55: a step takes the first list of events, folded over the state in order; each event is one update. -/
theorem inputsLandBetweenSteps : Obligations.InputsLandBetweenSteps := fun s now later e =>
  ⟨rfl, rfl, beginStep_append s now later e, fun _ => ⟨rfl, rfl, rfl, rfl⟩, rfl⟩

end Sys2Proof.Machine
end

section
/-! SUPPORT. The invariant right after reset (70_reset_and_hazards.md R380). -/

namespace Sys2Proof

/-- The blank cartridge is one the CORE accepts. -/
theorem Cartridge.blank_ok : Cartridge.blank.Ok where
  prgWf     := rfl
  prgWithin := rfl
  chrOk     := fun _ h => nomatch h

/-- All zeros are an image of each memory (decision D5). -/
theorem MemInit.zero_ok : MemInit.zero.Ok := by constructor <;> rfl

namespace Machine

section
variable {cart : Cartridge} {init : MemInit} (cartOk : cart.Ok) (initOk : init.Ok)
include cartOk initOk

/-- Pattern memory at reset is the cartridge's character data, or the initial image where it has none. -/
theorem powerOn_pat_ok :
    (cart.chr.getD init.pat).wf = true ∧ (cart.chr.getD init.pat).within Config.patternSize = true := by
  cases h : cart.chr with
  | none => exact ⟨initOk.patWf, initOk.patWithin⟩
  | some m => exact cartOk.chrOk m h

theorem powerOn_memoriesOk : (Ppu.powerOn cart init).MemoriesOk where
  patWf      := (powerOn_pat_ok cartOk initOk).1
  vramWf     := initOk.vramWf
  oamWf      := initOk.oamWf
  palWf      := initOk.palWf
  patWithin  := (powerOn_pat_ok cartOk initOk).2
  vramWithin := initOk.vramWithin
  oamWithin  := initOk.oamWithin
  palWithin  := initOk.palWithin

theorem powerOn_inv : (State.powerOn cart init).Inv where
  cart       := cartOk
  ramWf      := initOk.ramWf
  ramWithin  := initOk.ramWithin
  ppu        := powerOn_memoriesOk cartOk initOk
  reserved   := (by decide : bit 0x24#8 5 = true)
  breakFlag  := (by decide : bit 0x24#8 4 = false)
  line       := (by decide : 0 < Config.linesPerFrame)
  dot        := (by decide : 0 < Config.dotsPerLine)
  sprites    := length_buildSprites _ _ _
  background := ⟨0, Nat.zero_le _, Nat.zero_le _, rfl⟩

end

/-- Settles O57: the images meet it by their own conditions, the blank cartridge and the zero images among them. -/
theorem invariantAtReset : Obligations.InvariantAtReset :=
  ⟨powerOn_inv Cartridge.blank_ok MemInit.zero_ok, fun _ _ => powerOn_inv⟩

end Machine

end Sys2Proof
end
